-- ==== Sys2Proof/Word.lean ====
section
/-! DEFINITION. The word types of the framer: a byte of the input space, a run of stream bits. -/

namespace Sys2Proof

/-- One byte of the input space `IN` (20 R50). -/
abbrev Byte := BitVec 8

/-- A run of stream bits in stream order: the first element is consumed first and is the most
significant bit of a field (00 R9). -/
abbrev Bits := List Bool

end Sys2Proof
end

