-- ==== Sys2Proof/Config.lean ====
section
/-! DEFINITION. What an implementation fixes: the limits of 00 R8, the kinds of entry the four code
tables may hold, the parameters of the block (00 R8, 92 D33, 93 I19), and the kinds of syntax element. The
default of every parameter stands in Machine/Tables.lean. -/

namespace Sys2Proof

/-- `NMAX`, the largest width of `readBits` (00 R8, 40 R101). -/
def Config.nMax : Nat := 36

/-- `SI_LEN`, the byte length of a StreamInfo body (00 R8, 41 R124). -/
def Config.siLen : BitVec 24 := 34

/-- An entry of `BS_TABLE` (43 R170): code → {literal value, read-extra-8, read-extra-16, reserved}. -/
inductive BlockSizeClass where
  | reserved
  | literal (samples : BitVec 17)
  | extra8
  | extra16
  deriving DecidableEq, Repr

/-- An entry of `SR_TABLE` (43 R176). -/
inductive SampleRateClass where
  | fromStreamInfo
  | literal (hz : BitVec 20)
  | extra8kHz
  | extra16Hz
  | extra16TensHz
  | reserved
  deriving DecidableEq, Repr

/-- An entry of `CA_TABLE` (43 R182). -/
inductive ChannelClass where
  | independent (channels : BitVec 4)
  | leftSide
  | sideRight
  | midSide
  | reserved
  deriving DecidableEq, Repr

/-- An entry of `SS_TABLE` (43 R185). -/
inductive SampleSizeClass where
  | fromStreamInfo
  | literal (bits : BitVec 6)
  | reserved
  deriving DecidableEq, Repr

/-- The conventions of a CRC of `n` bits (00 R8, 45 R215, 92 D32): the generator without its top term, the start
value, the bit order, the final XOR. -/
structure CrcParams (n : Nat) where
  /-- `CRC8_POLY`, `CRC16_POLY`. -/
  poly     : BitVec n
  /-- The start value, `CRC8_INIT`, `CRC16_INIT`. -/
  init     : BitVec n
  /-- Reflection: the bits of each byte are fed least significant first, and the result is reversed. -/
  lsbFirst : Bool
  /-- The final XOR. -/
  xorOut   : BitVec n
  deriving DecidableEq, Repr

/-- The parameters of the block (00 R8) that the spec has a model take as configuration: those of 92 D33 and
93 I19. They are arguments of the machine (00 R6); State carries them, and no step writes them (log 22). -/
structure Params where
  /-- `SIG`. -/
  sig         : BitVec 32
  /-- `T_STREAMINFO`. -/
  tStreamInfo : BitVec 7
  /-- `SYNC14`. -/
  sync14      : BitVec 14
  /-- `BS_TABLE` (43 R170), one entry a code. -/
  bs          : Vector BlockSizeClass 16
  /-- `SR_TABLE` (43 R176). -/
  sr          : Vector SampleRateClass 16
  /-- `CA_TABLE` (43 R182). -/
  ca          : Vector ChannelClass 16
  /-- `SS_TABLE` (43 R185). -/
  ss          : Vector SampleSizeClass 8
  /-- `CRC8_POLY`, `CRC8_INIT`. -/
  crc8        : CrcParams 8
  /-- `CRC16_POLY`, `CRC16_INIT`. -/
  crc16       : CrcParams 16
  deriving DecidableEq, Repr

/-- The syntax element the framer reads next (30 R70, R85). `rest` is no element: the framer stands at a
boundary of the steps of 48 R270 and waits for the host. The four code kinds are the code fields of
`FH.WORD`, whose value the registers `FH.*Code` hold. DESIGN CHOICE (log 1): the spec keeps this place
inside its pseudocode, and the model, whose step is one element, keeps it in State. -/
inductive Elem where
  | rest
  | sig | mbh | siBody | mbBody
  | fhWord | bsCode | srCode | caCode | ssCode
  | idx | idxCont
  | xbs8 | xbs16 | xsr8k | xsr16 | xsr16t
  | crc8
  | sfh | wasted | sample
  | pad | crc16
  deriving DecidableEq, Repr

end Sys2Proof
end

