-- ==== Sys2Proof/Machine/Tables.lean ====
section
/-! DEFINITION. The default of every parameter (00 R8): the literal constants, the four code tables of the frame
header in the order of their codes, the CRC conventions; and how a table is read. The defaults are PRESUMED
(general knowledge, 93 U1 to U7, U10, U16, log 8) but for those the spec derives from DOC0; no rule of the machine
names one (92 D33). -/

namespace Sys2Proof

/-- `SIG`, the container signature `fLaC` (00 R8; PRESUMED, 93 U1, log 8). -/
def sigWord : BitVec 32 := 0x664C6143

/-- `T_STREAMINFO`, the block type of the stream-parameters block (00 R8; PRESUMED, 93 U2, log 8). -/
def tStreamInfo : BitVec 7 := 0

/-- `SYNC14`, the frame sync pattern (00 R8; read off DOC0's example header, 93 U3, log 8). -/
def sync14 : BitVec 14 := 0x3FFE

/-- The entries of `BS_TABLE` (43 R170). -/
def bsEntries : Vector BlockSizeClass 16 :=
  #v[.reserved, .literal 192, .literal 576, .literal 1152, .literal 2304, .literal 4608, .extra8, .extra16,
    .literal 256, .literal 512, .literal 1024, .literal 2048, .literal 4096, .literal 8192, .literal 16384,
    .literal 32768]

/-- The entries of `SR_TABLE` (43 R176). -/
def srEntries : Vector SampleRateClass 16 :=
  #v[.fromStreamInfo, .literal 88200, .literal 176400, .literal 192000, .literal 8000, .literal 16000,
    .literal 22050, .literal 24000, .literal 32000, .literal 44100, .literal 48000, .literal 96000, .extra8kHz,
    .extra16Hz, .extra16TensHz, .reserved]

/-- The entries of `CA_TABLE` (43 R182). -/
def caEntries : Vector ChannelClass 16 :=
  #v[.independent 1, .independent 2, .independent 3, .independent 4, .independent 5, .independent 6,
    .independent 7, .independent 8, .leftSide, .sideRight, .midSide, .reserved, .reserved, .reserved, .reserved,
    .reserved]

/-- The entries of `SS_TABLE` (43 R185). -/
def ssEntries : Vector SampleSizeClass 8 :=
  #v[.fromStreamInfo, .literal 8, .literal 12, .reserved, .literal 16, .literal 20, .literal 24, .reserved]

/-- The conventions of the CRC-8 (00 R8, 45 R216). -/
def crc8Default : CrcParams 8 := { poly := 0x07, init := 0, lsbFirst := false, xorOut := 0 }

/-- The conventions of the CRC-16 (00 R8, 45 R219; all but the generator PRESUMED, 93 U10, log 8). -/
def crc16Default : CrcParams 16 := { poly := 0x8005, init := 0, lsbFirst := false, xorOut := 0 }

/-- The parameters this hardware takes (00 R8). -/
def defaultParams : Params :=
  { sig := sigWord, tStreamInfo := tStreamInfo, sync14 := sync14, bs := bsEntries, sr := srEntries, ca := caEntries,
    ss := ssEntries, crc8 := crc8Default, crc16 := crc16Default }

/-- The entry of `BS_TABLE` for a code (43 R170). -/
def bsTable (p : Params) (code : BitVec 4) : BlockSizeClass := p.bs[code.toNat]'code.isLt

/-- The entry of `SR_TABLE` for a code (43 R176). -/
def srTable (p : Params) (code : BitVec 4) : SampleRateClass := p.sr[code.toNat]'code.isLt

/-- The entry of `CA_TABLE` for a code (43 R182). -/
def caTable (p : Params) (code : BitVec 4) : ChannelClass := p.ca[code.toNat]'code.isLt

/-- The entry of `SS_TABLE` for a code (43 R185). -/
def ssTable (p : Params) (code : BitVec 3) : SampleSizeClass := p.ss[code.toNat]'code.isLt

end Sys2Proof
end

