-- ==== Sys2Proof/Syntax.lean ====
section
/-! DEFINITION. The instructions of the framer: the syntax elements of the bitstream, one constructor for
each row of spec/opcode_table.json (30 R87), in the table's order. Operands are the fields as they stand
in the stream, first bit most significant (00 R9). Rule numbers without a file are those of
spec/30_encoding.md. -/

namespace Sys2Proof

/-- One syntax element, as the decoder reads it. -/
inductive Instr where
  /-- `SIG` (R71, 41 R120): the 32 bits read; only `0x664C6143` is legal. -/
  | sig (word : BitVec 32)
  /-- `MBH.SI` (R72, 41 R122 to R124): a block header of type `T_STREAMINFO`. -/
  | mbhSi (isLast : Bool) (length : BitVec 24)
  /-- `MBH.OTHER` (R72, 41 R122, R123, R126): a block header of any other type. -/
  | mbhOther (isLast : Bool) (blockType : BitVec 7) (length : BitVec 24)
  /-- `SI.BODY` (R74, 42 R140 to R149): the nine fields as they stand in the stream. -/
  | siBody (minBlockSize maxBlockSize : BitVec 16) (minFrameSize maxFrameSize : BitVec 24) (sampleRateHz : BitVec 20) (channelCountMinus1 : BitVec 3) (bitsPerSampleMinus1 : BitVec 5) (totalSamples : BitVec 36) (contentHash : BitVec 128)
  /-- `MB.BODY` (R73, 41 R126): the body of any other block, skipped unread; its length is `MB.length`. -/
  | mbBody
  /-- `FH.WORD` (R75, 43 R160 to R168): the 32 fixed bits of a frame header. -/
  | fhWord (sync : BitVec 14) (z1 b : Bool) (bsc src cac : BitVec 4) (ssc : BitVec 3) (z2 : Bool)
  /-- `BS.0000` (43 R174): block-size code `0000`, reserved. -/
  | bs0000
  /-- `BS.0001` (43 R171): block-size code `0001`, literal. -/
  | bs0001
  /-- `BS.0010` (43 R171): block-size code `0010`, literal. -/
  | bs0010
  /-- `BS.0011` (43 R171): block-size code `0011`, literal. -/
  | bs0011
  /-- `BS.0100` (43 R171): block-size code `0100`, literal. -/
  | bs0100
  /-- `BS.0101` (43 R171): block-size code `0101`, literal. -/
  | bs0101
  /-- `BS.0110` (43 R172): block-size code `0110`, read-extra-8. -/
  | bs0110
  /-- `BS.0111` (43 R173): block-size code `0111`, read-extra-16. -/
  | bs0111
  /-- `BS.1000` (43 R171): block-size code `1000`, literal. -/
  | bs1000
  /-- `BS.1001` (43 R171): block-size code `1001`, literal. -/
  | bs1001
  /-- `BS.1010` (43 R171): block-size code `1010`, literal. -/
  | bs1010
  /-- `BS.1011` (43 R171): block-size code `1011`, literal. -/
  | bs1011
  /-- `BS.1100` (43 R171): block-size code `1100`, literal. -/
  | bs1100
  /-- `BS.1101` (43 R171): block-size code `1101`, literal. -/
  | bs1101
  /-- `BS.1110` (43 R171): block-size code `1110`, literal. -/
  | bs1110
  /-- `BS.1111` (43 R171): block-size code `1111`, literal. -/
  | bs1111
  /-- `SR.0000` (43 R177): sample-rate code `0000`, from StreamInfo. -/
  | sr0000
  /-- `SR.0001` (43 R181): sample-rate code `0001`, literal. -/
  | sr0001
  /-- `SR.0010` (43 R181): sample-rate code `0010`, literal. -/
  | sr0010
  /-- `SR.0011` (43 R181): sample-rate code `0011`, literal. -/
  | sr0011
  /-- `SR.0100` (43 R181): sample-rate code `0100`, literal. -/
  | sr0100
  /-- `SR.0101` (43 R181): sample-rate code `0101`, literal. -/
  | sr0101
  /-- `SR.0110` (43 R181): sample-rate code `0110`, literal. -/
  | sr0110
  /-- `SR.0111` (43 R181): sample-rate code `0111`, literal. -/
  | sr0111
  /-- `SR.1000` (43 R181): sample-rate code `1000`, literal. -/
  | sr1000
  /-- `SR.1001` (43 R181): sample-rate code `1001`, literal. -/
  | sr1001
  /-- `SR.1010` (43 R181): sample-rate code `1010`, literal. -/
  | sr1010
  /-- `SR.1011` (43 R181): sample-rate code `1011`, literal. -/
  | sr1011
  /-- `SR.1100` (43 R178): sample-rate code `1100`, read-extra-8 kHz. -/
  | sr1100
  /-- `SR.1101` (43 R179): sample-rate code `1101`, read-extra-16 Hz. -/
  | sr1101
  /-- `SR.1110` (43 R180): sample-rate code `1110`, read-extra-16 tens-of-Hz. -/
  | sr1110
  /-- `SR.1111` (43 R189): sample-rate code `1111`, reserved. -/
  | sr1111
  /-- `CA.0000` (43 R183): channel-assignment code `0000`, independent. -/
  | ca0000
  /-- `CA.0001` (43 R183): channel-assignment code `0001`, independent. -/
  | ca0001
  /-- `CA.0010` (43 R183): channel-assignment code `0010`, independent. -/
  | ca0010
  /-- `CA.0011` (43 R183): channel-assignment code `0011`, independent. -/
  | ca0011
  /-- `CA.0100` (43 R183): channel-assignment code `0100`, independent. -/
  | ca0100
  /-- `CA.0101` (43 R183): channel-assignment code `0101`, independent. -/
  | ca0101
  /-- `CA.0110` (43 R183): channel-assignment code `0110`, independent. -/
  | ca0110
  /-- `CA.0111` (43 R183): channel-assignment code `0111`, independent. -/
  | ca0111
  /-- `CA.1000` (43 R183): channel-assignment code `1000`, left/side. -/
  | ca1000
  /-- `CA.1001` (43 R183): channel-assignment code `1001`, side/right. -/
  | ca1001
  /-- `CA.1010` (43 R183): channel-assignment code `1010`, mid/side. -/
  | ca1010
  /-- `CA.1011` (43 R191): channel-assignment code `1011`, reserved. -/
  | ca1011
  /-- `CA.1100` (43 R191): channel-assignment code `1100`, reserved. -/
  | ca1100
  /-- `CA.1101` (43 R191): channel-assignment code `1101`, reserved. -/
  | ca1101
  /-- `CA.1110` (43 R191): channel-assignment code `1110`, reserved. -/
  | ca1110
  /-- `CA.1111` (43 R191): channel-assignment code `1111`, reserved. -/
  | ca1111
  /-- `SS.000` (43 R186): sample-size code `000`, from StreamInfo. -/
  | ss000
  /-- `SS.001` (43 R187): sample-size code `001`, literal. -/
  | ss001
  /-- `SS.010` (43 R187): sample-size code `010`, literal. -/
  | ss010
  /-- `SS.011` (43 R188): sample-size code `011`, reserved. -/
  | ss011
  /-- `SS.100` (43 R187): sample-size code `100`, literal. -/
  | ss100
  /-- `SS.101` (43 R187): sample-size code `101`, literal. -/
  | ss101
  /-- `SS.110` (43 R187): sample-size code `110`, literal. -/
  | ss110
  /-- `SS.111` (43 R188): sample-size code `111`, reserved. -/
  | ss111
  /-- `IDX.1` (R76, 44 R202): first byte `0vvvvvvv`. -/
  | idx1 (v : BitVec 7)
  /-- `IDX.2` (R76, 44 R203): first byte `110vvvvv`, one `IDX.CONT` follows. -/
  | idx2 (v : BitVec 5)
  /-- `IDX.3` (R76, 44 R203): first byte `1110vvvv`, two `IDX.CONT` follow. -/
  | idx3 (v : BitVec 4)
  /-- `IDX.4` (R76, 44 R203): first byte `11110vvv`, three `IDX.CONT` follow. -/
  | idx4 (v : BitVec 3)
  /-- `IDX.5` (R76, 44 R203): first byte `111110vv`, four `IDX.CONT` follow. -/
  | idx5 (v : BitVec 2)
  /-- `IDX.6` (R76, 44 R203): first byte `1111110v`, five `IDX.CONT` follow. -/
  | idx6 (v : BitVec 1)
  /-- `IDX.7` (R76, 44 R203): first byte `11111110`, six `IDX.CONT` follow. -/
  | idx7
  /-- `IDX.BAD10` (R76, 44 R207): first byte `10xxxxxx`. -/
  | idxBad10 (x : BitVec 6)
  /-- `IDX.BADFF` (R76, 44 R207): first byte `11111111`. -/
  | idxBadFF
  /-- `IDX.CONT` (R76, 44 R204): a byte after the first; only `top = 10` is legal. -/
  | idxCont (top : BitVec 2) (data : BitVec 6)
  /-- `XBS8` (R77, 43 R172). -/
  | xbs8 (v : BitVec 8)
  /-- `XBS16` (R77, 43 R173). -/
  | xbs16 (v : BitVec 16)
  /-- `XSR8K` (R78, 43 R178). -/
  | xsr8k (v : BitVec 8)
  /-- `XSR16` (R78, 43 R179). -/
  | xsr16 (v : BitVec 16)
  /-- `XSR16T` (R78, 43 R180). -/
  | xsr16t (v : BitVec 16)
  /-- `CRC8` (R79, 43 R190). -/
  | crc8 (headerCrc8 : BitVec 8)
  /-- `SFH.CONSTANT` (R80, 46 R241): `z ++ type = 0000000`. -/
  | sfhConstant (w : Bool)
  /-- `SFH.VERBATIM` (R80, 46 R242): `z ++ type = 0000001`. -/
  | sfhVerbatim (w : Bool)
  /-- `SFH.RSVD_00001x` (R80, 46 R238). -/
  | sfhRsvd00001x (x : BitVec 1) (w : Bool)
  /-- `SFH.RSVD_0001xx` (R80, 46 R239). -/
  | sfhRsvd0001xx (x : BitVec 2) (w : Bool)
  /-- `SFH.FIXED` (R80, 46 R241): order `o`. -/
  | sfhFixed (o : BitVec 3) (w : Bool)
  /-- `SFH.RSVD_01xxxx` (R80, 46 R240). -/
  | sfhRsvd01xxxx (x : BitVec 4) (w : Bool)
  /-- `SFH.LPC` (R80, 46 R241): order `o + 1`. -/
  | sfhLpc (o : BitVec 5) (w : Bool)
  /-- `SFH.RSVD_Z` (R80, 46 R237): the mandatory-zero bit is 1. -/
  | sfhRsvdZ (t : BitVec 6) (w : Bool)
  /-- `WASTED` (R81, 46 R243): `k - 1` 0-bits and a 1-bit, `k` bits in all. -/
  | wasted (k : Nat)
  /-- `SAMPLE` (R82, 46 R246): a field of `width` bits; the decoder takes `width` from `SF[CH].width` (R85). -/
  | sample (width : Nat) (field : BitVec 36)
  /-- `PAD` (R83, 47 R260): the 0 to 7 bits up to the byte boundary. -/
  | pad (bits : Bits)
  /-- `CRC16` (R84, 47 R262). -/
  | crc16 (footerCrc16 : BitVec 16)
  deriving DecidableEq, Repr

end Sys2Proof
end

