-- ==== Sys2Proof/Decode.lean ====
section
/-! DEFINITION. The decoder, total on any bits, and the encoder, both written from the formats of
spec/30_encoding.md (R70 to R84). A run of stream bits is read field by field in stream order. Of the parameters
(00 R8) only `T_STREAMINFO` says which instruction a run of bits is. -/

namespace Sys2Proof

/-! ## Fields -/

/-- The value of a field whose bits are `bs` in stream order: the first bit is the most significant
(00 R9; the loop of 40 R101). -/
def bitsVal (bs : Bits) : Nat := bs.foldl (fun v b => 2 * v + b.toNat) 0

/-- The `n` stream bits of the value `v`, most significant first. -/
def putBits : Nat → Nat → Bits
  | 0, _ => []
  | n + 1, v => (v / 2 ^ n % 2 == 1) :: putBits n v

/-- The bits of an `n`-bit field in stream order. -/
def putField {n : Nat} (v : BitVec n) : Bits := putBits n v.toNat

/-- Read one `n`-bit field off the front of a run of bits. -/
def getField (n : Nat) (bs : Bits) : BitVec n × Bits := (BitVec.ofNat n (bitsVal (bs.take n)), bs.drop n)

/-- Read one bit off the front of a run of bits. -/
def getFlag (bs : Bits) : Bool × Bits := (bs.headD false, bs.tail)

/-! ## The forms of one element -/

/-- `lead1` (44 R201): the number of leading 1-bits. -/
def lead1 : Bits → Nat
  | true :: bs => lead1 bs + 1
  | _ => 0

/-- The form of the first byte of the index (30 R76; PRESUMED, 93 U9, log 8). -/
def idxForm (b : BitVec 8) : Instr :=
  match lead1 (putField b) with
  | 0 => .idx1 (b.setWidth 7)
  | 1 => .idxBad10 (b.setWidth 6)
  | 2 => .idx2 (b.setWidth 5)
  | 3 => .idx3 (b.setWidth 4)
  | 4 => .idx4 (b.setWidth 3)
  | 5 => .idx5 (b.setWidth 2)
  | 6 => .idx6 (b.setWidth 1)
  | 7 => .idx7
  | _ => .idxBadFF

/-- The form of a subframe header with zero bit `z`, type code `t` and wasted-bits flag `w` (30 R80). -/
def sfhForm (z : Bool) (t : BitVec 6) (w : Bool) : Instr :=
  if z then .sfhRsvdZ t w
  else if t.toNat = 0 then .sfhConstant w
  else if t.toNat = 1 then .sfhVerbatim w
  else if t.toNat < 4 then .sfhRsvd00001x (t.setWidth 1) w
  else if t.toNat < 8 then .sfhRsvd0001xx (t.setWidth 2) w
  else if t.toNat < 16 then .sfhFixed (t.setWidth 3) w
  else if t.toNat < 32 then .sfhRsvd01xxxx (t.setWidth 4) w
  else .sfhLpc (t.setWidth 5) w

/-- The form of a metadata block header (30 R72). -/
def mbhForm (p : Params) (isLast : Bool) (blockType : BitVec 7) (length : BitVec 24) : Instr :=
  if blockType = p.tStreamInfo then .mbhSi isLast length else .mbhOther isLast blockType length

/-- The rows of the block-size code, in the order of their codes (30 R87, 43 R170). -/
def bsRows : List Instr :=
  [.bs0000, .bs0001, .bs0010, .bs0011, .bs0100, .bs0101, .bs0110, .bs0111] ++
  [.bs1000, .bs1001, .bs1010, .bs1011, .bs1100, .bs1101, .bs1110, .bs1111]

/-- The rows of the sample-rate code, in the order of their codes (30 R87, 43 R176). -/
def srRows : List Instr :=
  [.sr0000, .sr0001, .sr0010, .sr0011, .sr0100, .sr0101, .sr0110, .sr0111] ++
  [.sr1000, .sr1001, .sr1010, .sr1011, .sr1100, .sr1101, .sr1110, .sr1111]

/-- The rows of the channel-assignment code, in the order of their codes (30 R87, 43 R182). -/
def caRows : List Instr :=
  [.ca0000, .ca0001, .ca0010, .ca0011, .ca0100, .ca0101, .ca0110, .ca0111] ++
  [.ca1000, .ca1001, .ca1010, .ca1011, .ca1100, .ca1101, .ca1110, .ca1111]

/-- The rows of the sample-size code, in the order of their codes (30 R87, 43 R185). -/
def ssRows : List Instr :=
  [.ss000, .ss001, .ss010, .ss011, .ss100, .ss101, .ss110, .ss111]

/-! ## Decoding -/

/-- Why the decoder refuses a run of bits. -/
inductive DecodeError where
  /-- The run ends before the element does (30 R88, last row). -/
  | cutShort
  /-- No element is expected (`Elem.rest`). -/
  | noElement
  deriving DecidableEq, Repr

/-- The length in bits of the elements whose length their kind alone fixes (30 R70); `w` is the length of
a `SAMPLE` or of a `PAD`, which State fixes (30 R85). A code field of `FH.WORD` is its 3 or 4 bits.
`WASTED` announces its own end and `MB.BODY` is not read. -/
def Elem.bits (e : Elem) (w : Nat) : Nat :=
  match e with
  | .rest | .mbBody | .wasted => 0
  | .sig | .mbh | .fhWord => 32
  | .siBody => 272
  | .bsCode | .srCode | .caCode => 4
  | .ssCode => 3
  | .idx | .idxCont | .xbs8 | .xsr8k | .crc8 | .sfh => 8
  | .xbs16 | .xsr16 | .xsr16t | .crc16 => 16
  | .sample | .pad => w

/-- The block header's three fields (30 R72). -/
def decodeMbh (p : Params) (bs : Bits) : Instr × Bits :=
  let (isLast, bs) := getFlag bs
  let (blockType, bs) := getField 7 bs
  let (length, bs) := getField 24 bs
  (mbhForm p isLast blockType length, bs)

/-- The nine fields of a StreamInfo body (30 R74). -/
def decodeSiBody (bs : Bits) : Instr × Bits :=
  let (minBlock, bs) := getField 16 bs
  let (maxBlock, bs) := getField 16 bs
  let (minFrame, bs) := getField 24 bs
  let (maxFrame, bs) := getField 24 bs
  let (rate, bs) := getField 20 bs
  let (channels, bs) := getField 3 bs
  let (depth, bs) := getField 5 bs
  let (total, bs) := getField 36 bs
  let (hash, bs) := getField 128 bs
  (.siBody minBlock maxBlock minFrame maxFrame rate channels depth total hash, bs)

/-- The eight fields of the fixed part of a frame header (30 R75). -/
def decodeFhWord (bs : Bits) : Instr × Bits :=
  let (sync, bs) := getField 14 bs
  let (z1, bs) := getFlag bs
  let (b, bs) := getFlag bs
  let (bsc, bs) := getField 4 bs
  let (src, bs) := getField 4 bs
  let (cac, bs) := getField 4 bs
  let (ssc, bs) := getField 3 bs
  let (z2, bs) := getFlag bs
  (.fhWord sync z1 b bsc src cac ssc z2, bs)

/-- The three fields of a subframe header (30 R80). -/
def decodeSfh (bs : Bits) : Instr × Bits :=
  let (z, bs) := getFlag bs
  let (t, bs) := getField 6 bs
  let (w, bs) := getFlag bs
  (sfhForm z t w, bs)

/-- A later byte of the index (30 R76). -/
def decodeIdxCont (bs : Bits) : Instr × Bits :=
  let (top, bs) := getField 2 bs
  let (data, bs) := getField 6 bs
  (.idxCont top data, bs)

/-- The length of the unary code at the front of a run of bits, its terminating 1-bit included, and the
rest (30 R81, 46 R243); none when the run holds no 1-bit. -/
def decodeUnary : Bits → Option (Nat × Bits)
  | [] => none
  | true :: bs => some (1, bs)
  | false :: bs => (decodeUnary bs).map fun (k, bs) => (k + 1, bs)

/-- The element `e` at the front of a run of bits that holds all of it. -/
def decodeWhole (p : Params) (e : Elem) (w : Nat) (bs : Bits) : Except DecodeError (Instr × Bits) :=
  match e with
  | .rest => .error .noElement
  | .sig => let (v, bs) := getField 32 bs; .ok (.sig v, bs)
  | .mbh => .ok (decodeMbh p bs)
  | .siBody => .ok (decodeSiBody bs)
  | .mbBody => .ok (.mbBody, bs)
  | .fhWord => .ok (decodeFhWord bs)
  | .bsCode => let (c, bs) := getField 4 bs; .ok (bsRows.getD c.toNat .bs0000, bs)
  | .srCode => let (c, bs) := getField 4 bs; .ok (srRows.getD c.toNat .sr1111, bs)
  | .caCode => let (c, bs) := getField 4 bs; .ok (caRows.getD c.toNat .ca1111, bs)
  | .ssCode => let (c, bs) := getField 3 bs; .ok (ssRows.getD c.toNat .ss111, bs)
  | .idx => let (b, bs) := getField 8 bs; .ok (idxForm b, bs)
  | .idxCont => .ok (decodeIdxCont bs)
  | .xbs8 => let (v, bs) := getField 8 bs; .ok (.xbs8 v, bs)
  | .xbs16 => let (v, bs) := getField 16 bs; .ok (.xbs16 v, bs)
  | .xsr8k => let (v, bs) := getField 8 bs; .ok (.xsr8k v, bs)
  | .xsr16 => let (v, bs) := getField 16 bs; .ok (.xsr16 v, bs)
  | .xsr16t => let (v, bs) := getField 16 bs; .ok (.xsr16t v, bs)
  | .crc8 => let (v, bs) := getField 8 bs; .ok (.crc8 v, bs)
  | .sfh => .ok (decodeSfh bs)
  | .wasted => match decodeUnary bs with
    | some (k, bs) => .ok (.wasted k, bs)
    | none => .error .cutShort
  | .sample => .ok (.sample w (BitVec.ofNat 36 (bitsVal (bs.take w))), bs.drop w)
  | .pad => .ok (.pad (bs.take w), bs.drop w)
  | .crc16 => let (v, bs) := getField 16 bs; .ok (.crc16 v, bs)

/-- The element of kind `e` at the front of a run of stream bits, and the bits after it. `w` is the length
of a `SAMPLE` or a `PAD`, and `p` the parameters. -/
def decode (p : Params) (e : Elem) (w : Nat) (bs : Bits) : Except DecodeError (Instr × Bits) :=
  if bs.length < e.bits w then .error .cutShort else decodeWhole p e w bs

/-! ## Encoding -/

/-- The kind of element an instruction is. -/
def Instr.elem : Instr → Elem
  | .sig _ => .sig
  | .mbhSi .. | .mbhOther .. => .mbh
  | .siBody .. => .siBody
  | .mbBody => .mbBody
  | .fhWord .. => .fhWord
  | .bs0000 | .bs0001 | .bs0010 | .bs0011 | .bs0100 | .bs0101 | .bs0110 | .bs0111
  | .bs1000 | .bs1001 | .bs1010 | .bs1011 | .bs1100 | .bs1101 | .bs1110 | .bs1111 => .bsCode
  | .sr0000 | .sr0001 | .sr0010 | .sr0011 | .sr0100 | .sr0101 | .sr0110 | .sr0111
  | .sr1000 | .sr1001 | .sr1010 | .sr1011 | .sr1100 | .sr1101 | .sr1110 | .sr1111 => .srCode
  | .ca0000 | .ca0001 | .ca0010 | .ca0011 | .ca0100 | .ca0101 | .ca0110 | .ca0111
  | .ca1000 | .ca1001 | .ca1010 | .ca1011 | .ca1100 | .ca1101 | .ca1110 | .ca1111 => .caCode
  | .ss000 | .ss001 | .ss010 | .ss011 | .ss100 | .ss101 | .ss110 | .ss111 => .ssCode
  | .idx1 _ | .idx2 _ | .idx3 _ | .idx4 _ | .idx5 _ | .idx6 _ | .idx7 | .idxBad10 _ | .idxBadFF => .idx
  | .idxCont .. => .idxCont
  | .xbs8 _ => .xbs8
  | .xbs16 _ => .xbs16
  | .xsr8k _ => .xsr8k
  | .xsr16 _ => .xsr16
  | .xsr16t _ => .xsr16t
  | .crc8 _ => .crc8
  | .sfhConstant _ | .sfhVerbatim _ | .sfhRsvd00001x .. | .sfhRsvd0001xx .. | .sfhFixed .. | .sfhRsvd01xxxx ..
  | .sfhLpc .. | .sfhRsvdZ .. => .sfh
  | .wasted _ => .wasted
  | .sample .. => .sample
  | .pad _ => .pad
  | .crc16 _ => .crc16

/-- The length State must give for an instruction whose kind does not fix it (`SAMPLE`, `PAD`). -/
def Instr.width : Instr → Nat
  | .sample w _ => w
  | .pad bits => bits.length
  | _ => 0

/-- The bits of a subframe header with zero bit 0 and type code `t`. -/
def putSfh (t : BitVec 6) (w : Bool) : Bits := false :: putField t ++ [w]

/-- The stream bits of an instruction, from the same formats (30 R71 to R84). The body of a skipped block
is no field of the instruction: `MB.BODY` encodes to no bits. -/
def encode (p : Params) : Instr → Bits
  | .sig v => putField v
  | .mbhSi isLast length => isLast :: putField p.tStreamInfo ++ putField length
  | .mbhOther isLast blockType length => isLast :: putField blockType ++ putField length
  | .siBody minBlock maxBlock minFrame maxFrame rate channels depth total hash =>
    putField minBlock ++ putField maxBlock ++ putField minFrame ++ putField maxFrame ++ putField rate ++
      putField channels ++ putField depth ++ putField total ++ putField hash
  | .mbBody => []
  | .fhWord sync z1 b bsc src cac ssc z2 =>
    putField sync ++ [z1, b] ++ putField bsc ++ putField src ++ putField cac ++ putField ssc ++ [z2]
  | .bs0000 => putBits 4 0b0000
  | .bs0001 => putBits 4 0b0001
  | .bs0010 => putBits 4 0b0010
  | .bs0011 => putBits 4 0b0011
  | .bs0100 => putBits 4 0b0100
  | .bs0101 => putBits 4 0b0101
  | .bs0110 => putBits 4 0b0110
  | .bs0111 => putBits 4 0b0111
  | .bs1000 => putBits 4 0b1000
  | .bs1001 => putBits 4 0b1001
  | .bs1010 => putBits 4 0b1010
  | .bs1011 => putBits 4 0b1011
  | .bs1100 => putBits 4 0b1100
  | .bs1101 => putBits 4 0b1101
  | .bs1110 => putBits 4 0b1110
  | .bs1111 => putBits 4 0b1111
  | .sr0000 => putBits 4 0b0000
  | .sr0001 => putBits 4 0b0001
  | .sr0010 => putBits 4 0b0010
  | .sr0011 => putBits 4 0b0011
  | .sr0100 => putBits 4 0b0100
  | .sr0101 => putBits 4 0b0101
  | .sr0110 => putBits 4 0b0110
  | .sr0111 => putBits 4 0b0111
  | .sr1000 => putBits 4 0b1000
  | .sr1001 => putBits 4 0b1001
  | .sr1010 => putBits 4 0b1010
  | .sr1011 => putBits 4 0b1011
  | .sr1100 => putBits 4 0b1100
  | .sr1101 => putBits 4 0b1101
  | .sr1110 => putBits 4 0b1110
  | .sr1111 => putBits 4 0b1111
  | .ca0000 => putBits 4 0b0000
  | .ca0001 => putBits 4 0b0001
  | .ca0010 => putBits 4 0b0010
  | .ca0011 => putBits 4 0b0011
  | .ca0100 => putBits 4 0b0100
  | .ca0101 => putBits 4 0b0101
  | .ca0110 => putBits 4 0b0110
  | .ca0111 => putBits 4 0b0111
  | .ca1000 => putBits 4 0b1000
  | .ca1001 => putBits 4 0b1001
  | .ca1010 => putBits 4 0b1010
  | .ca1011 => putBits 4 0b1011
  | .ca1100 => putBits 4 0b1100
  | .ca1101 => putBits 4 0b1101
  | .ca1110 => putBits 4 0b1110
  | .ca1111 => putBits 4 0b1111
  | .ss000 => putBits 3 0b000
  | .ss001 => putBits 3 0b001
  | .ss010 => putBits 3 0b010
  | .ss011 => putBits 3 0b011
  | .ss100 => putBits 3 0b100
  | .ss101 => putBits 3 0b101
  | .ss110 => putBits 3 0b110
  | .ss111 => putBits 3 0b111
  | .idx1 v => false :: putField v
  | .idxBad10 x => [true, false] ++ putField x
  | .idx2 v => [true, true, false] ++ putField v
  | .idx3 v => [true, true, true, false] ++ putField v
  | .idx4 v => [true, true, true, true, false] ++ putField v
  | .idx5 v => [true, true, true, true, true, false] ++ putField v
  | .idx6 v => [true, true, true, true, true, true, false] ++ putField v
  | .idx7 => [true, true, true, true, true, true, true, false]
  | .idxBadFF => [true, true, true, true, true, true, true, true]
  | .idxCont top data => putField top ++ putField data
  | .xbs8 v => putField v
  | .xbs16 v => putField v
  | .xsr8k v => putField v
  | .xsr16 v => putField v
  | .xsr16t v => putField v
  | .crc8 v => putField v
  | .sfhConstant w => putSfh 0 w
  | .sfhVerbatim w => putSfh 1 w
  | .sfhRsvd00001x x w => putSfh (0b00001#5 ++ x) w
  | .sfhRsvd0001xx x w => putSfh (0b0001#4 ++ x) w
  | .sfhFixed o w => putSfh (0b001#3 ++ o) w
  | .sfhRsvd01xxxx x w => putSfh (0b01#2 ++ x) w
  | .sfhLpc o w => putSfh (0b1#1 ++ o) w
  | .sfhRsvdZ t w => true :: putField t ++ [w]
  | .wasted k => List.replicate (k - 1) false ++ [true]
  | .sample w field => putBits w field.toNat
  | .pad bits => bits
  | .crc16 v => putField v

/-! ## The host's questions about the opcode table -/

/-- The stream bits of bytes, most significant bit of each byte first (20 R53). -/
def bytesBits (bytes : List Byte) : Bits := bytes.flatMap putField

/-- `n` bytes of `w`, least significant byte first: the numbering of spec/opcode_table.json for the `IDX`
rows, whose mask and match stand against the first byte. -/
def lowBytes (n w : Nat) : List Byte := (List.range n).map fun i => BitVec.ofNat 8 (w / 256 ^ i)

/-- `n` bytes of `w`, most significant byte first: the numbering of every other row, one word whose first
stream bit is its highest bit. -/
def highBytes (n w : Nat) : List Byte := (lowBytes n w).reverse

/-- Bits `lo` to `lo + n - 1` of `w`. -/
def slice (w lo n : Nat) : Nat := w / 2 ^ lo % 2 ^ n

/-- The word is a row's pattern in the `n` bits at `lo` and 0 everywhere else. -/
def onlyField (w lo n : Nat) : Bool := w != 0 && w == slice w lo n * 2 ^ lo

/-- All bytes of `w` after the first (numbered from the low end) are of the form `10xxxxxx`. -/
def contBytes (n w : Nat) : Bool := (lowBytes n w).tail.all fun b => b.extractLsb' 6 2 == 0b10

/-- The kind of element an opcode-table word of `nbits` bits is read as. The same word stands in several
rows of the table (the word 0 in `MBH.SI` and in four code rows), because the framer knows from PHASE and
its registers which element is next and the word alone does not say it. The choice made here (log 15): a
word equal to a row's match, all free bits 0, is that row, the first such row of the table; failing that,
the first row it fits. -/
def tableElem (nbits w : Nat) : Elem :=
  if nbits = 8 then (if [0x02, 0x04, 0x08, 0x10, 0x20, 0x40].contains w then .sfh else .idx)
  else if nbits = 16 then (if slice w 5 3 = 0b110 then .idx else .xbs16)
  else if nbits = 24 ∨ nbits = 40 ∨ nbits = 48 ∨ nbits = 56 then .idx
  else if nbits = 32 then
    (if w = defaultParams.sig.toNat then .sig
    else if slice w 18 14 = defaultParams.sync14.toNat ∧ slice w 17 1 = 0 ∧ slice w 0 1 = 0 then .fhWord
    else if onlyField w 12 4 then .bsCode
    else if onlyField w 8 4 then .srCode
    else if onlyField w 4 4 then .caCode
    else if onlyField w 1 3 then .ssCode
    else if slice w 3 5 = 0b11110 ∧ contBytes 4 w then .idx
    else .mbh)
  else if nbits = 272 then .siBody
  else .rest

/-- The stream bytes of an opcode-table word. -/
def tableBytes (nbits w : Nat) : List Byte :=
  if tableElem nbits w = .idx then lowBytes (nbits / 8) w else highBytes (nbits / 8) w

/-- The bits the decoder is given for an opcode-table word: its stream bytes, or for a code row the code
field of the word (30 R75, R87). -/
def tableBits (nbits w : Nat) : Bits :=
  match tableElem nbits w with
  | .bsCode => putBits 4 (slice w 12 4)
  | .srCode => putBits 4 (slice w 8 4)
  | .caCode => putBits 4 (slice w 4 4)
  | .ssCode => putBits 3 (slice w 1 3)
  | _ => bytesBits (tableBytes nbits w)

/-- The instruction the decoder reads from an opcode-table word, under the parameters the table is written for, the
default ones. -/
def decodeTableWord (nbits w : Nat) : Option Instr :=
  match decode defaultParams (tableElem nbits w) 0 (tableBits nbits w) with
  | .ok (i, _) => some i
  | .error _ => none

end Sys2Proof
end

