-- ==== Sys2Proof/Machine/State.lean ====
section
/-! DEFINITION. The state of one framer, as plain data (10 R20 to R41), its reset (10 R42, 70 R340), and
the reasons a step can stop. Rule numbers without a file are those of spec/10_state.md. -/

namespace Sys2Proof.Machine

/-- `PHASE` (R22): which element the framer expects next. -/
inductive Phase where
  /-- `P_IDLE` (0): reset state, waiting for `START`. -/
  | idle
  /-- `P_SIG` (1): the signature is next. -/
  | sig
  /-- `P_MBH` (2): a metadata block header is next. -/
  | mbh
  /-- `P_FRAME` (3): at a frame boundary (or inside the frame of the current `NEXT`). -/
  | frame
  /-- `P_DONE` (4): the input ended cleanly; terminal. -/
  | done
  /-- `P_ERR` (5): a fatal failure was raised; terminal. -/
  | err
  deriving DecidableEq, Repr

/-- The ten failures of the framer (60 R300). The list is closed. -/
inductive Failure where
  | badSignature
  | missingStreamInfo
  | invalidStreamInfo
  | frameSyncLost
  | malformedIndex
  | headerChecksumMismatch
  | frameChecksumMismatch
  | reservedSubframeType
  | unsupportedSubframeType
  | outOfData
  deriving DecidableEq, Repr

/-- The metadata block header registers `MB.*` (R28). -/
structure MetaBlock where
  isLast    : Bool
  blockType : BitVec 7
  length    : BitVec 24
  deriving DecidableEq, Repr

/-- The StreamInfo registers `SI.*` (R30), and the payload of the `StreamInfo` event (R40). -/
structure StreamInfo where
  minBlockSize  : BitVec 16
  maxBlockSize  : BitVec 16
  minFrameSize  : BitVec 24
  maxFrameSize  : BitVec 24
  sampleRateHz  : BitVec 20
  channelCount  : BitVec 4
  bitsPerSample : BitVec 6
  totalSamples  : BitVec 36
  contentHash   : BitVec 128
  deriving DecidableEq, Repr

/-- The frame-header registers `FH.*`: the fields (R31) and the derived values (R32). -/
structure FrameHeader where
  start                 : Nat
  blockingStrategyFixed : Bool
  blockSizeCode         : BitVec 4
  sampleRateCode        : BitVec 4
  channelAssignmentCode : BitVec 4
  sampleSizeCode        : BitVec 3
  frameOrSampleIndex    : BitVec 36
  indexBytes            : BitVec 3
  extendedBlockSize     : BitVec 16
  extendedSampleRate    : BitVec 16
  headerCrc8            : BitVec 8
  headerCrcOk           : Bool
  blockSize             : BitVec 17
  sampleRateHz          : BitVec 20
  channelCount          : BitVec 4
  sampleSize            : BitVec 6
  deriving DecidableEq, Repr

/-- `SF[c].subframeType` (R34). `reserved` is the value `classify` gives just before its failure is raised
(46 R236); no consumer ever sees it. -/
inductive SubframeType where
  | constant
  | verbatim
  | fixed (order : BitVec 3)
  | lpc (order : BitVec 6)
  | reserved
  deriving DecidableEq, Repr

/-- One entry of the subframe register file `SF[0..7]` (R34). -/
structure Subframe where
  subframeType      : SubframeType
  wastedBitsPresent : Bool
  wastedBitCount    : Nat
  width             : BitVec 6
  samples           : List Int
  deriving DecidableEq, Repr

/-- The footer registers `FR.*` (R35). -/
structure Footer where
  footerCrc16 : BitVec 16
  footerCrcOk : Bool
  deriving DecidableEq, Repr

/-- The header of an emitted frame: the thirteen values of R41. -/
structure HeaderRecord where
  blockingStrategyFixed : Bool
  blockSizeCode         : BitVec 4
  sampleRateCode        : BitVec 4
  channelAssignmentCode : BitVec 4
  sampleSizeCode        : BitVec 3
  frameOrSampleIndex    : BitVec 36
  extendedBlockSize     : Option (BitVec 16)
  extendedSampleRate    : Option (BitVec 16)
  headerCrc8            : BitVec 8
  blockSize             : BitVec 17
  sampleRateHz          : BitVec 20
  channelCount          : BitVec 4
  sampleSize            : BitVec 6
  deriving DecidableEq, Repr

/-- A subframe of an emitted frame (R41). -/
structure SubframeRecord where
  subframeType      : SubframeType
  wastedBitsPresent : Bool
  wastedBitCount    : Nat
  samples           : List Int
  deriving DecidableEq, Repr

/-- The payload of a `Frame` event (R41). -/
structure FrameRecord where
  header      : HeaderRecord
  subframes   : List SubframeRecord
  footerCrc16 : BitVec 16
  headerCrcOk : Bool
  footerCrcOk : Bool
  deriving DecidableEq, Repr

/-- The events of the output list (R40). -/
inductive Event where
  | streamInfo (si : StreamInfo)
  | frame (fr : FrameRecord)
  | report (code : BitVec 4) (off : Nat)
  | error (code : BitVec 4) (off : Nat)
  | endOfStream
  deriving DecidableEq, Repr

/-- What the host may do between two steps (48 R279), and `wait`, by which it lets the framer take one step
of its own before it acts again. DESIGN CHOICE (log 2): the host's moves stand in State as a list. -/
inductive HostAction where
  | reset
  | start
  | next
  | setLenient (b : Bool)
  | setInput (bytes : List Byte)
  | wait
  deriving DecidableEq, Repr

/-- Why a step stops with a fault. -/
inductive Fault where
  /-- An element of a subframe was executed with `CH = c` above 7: the register file has `SF[0]` to `SF[7]`
  only (R34). Raised by the `SFH`, `WASTED` and `SAMPLE` meanings. Safe: no step from reset gets there
  (`FH.channelCount` is at most 8, 43 R183), and the model stops rather than invent a register (log 13). -/
  | noSubframe (c : BitVec 4)
  deriving DecidableEq, Repr

/-- Why a step has no meaning. -/
inductive Refusal where
  /-- The instruction has no meaning in this model yet. Raised by `exec`'s arms only. Safe. -/
  | notModelled (mnemonic : String)
  /-- `readBits` of a width outside 1 to 36, which is outside its contract (40 R101, R107, 92 D35). Raised by
  the read operation, and in fact by `SAMPLE` alone, the one element whose width is a register. Safe: no step
  from reset gets there (log 12). -/
  | readBitsWidth (n : Nat)
  /-- The host set `IN` and `LEN` outside `P_IDLE`, against its duty (20 R51, 48 R279, 70 R351): the spec says
  nothing of such a run. Raised by the host action `setInput`. Safe (log 10). -/
  | inputChanged
  deriving DecidableEq, Repr

/-- The complete state (R20), the arguments of the machine (00 R6): `IN`, `LEN` (log 3) and the parameters (log 22),
and the model's own fields (log 1, log 2). -/
structure State where
  /-- `CUR` (R21): stream bits consumed since `START`. -/
  cur     : Nat
  /-- `PHASE` (R22). -/
  phase   : Phase
  /-- `CTRL.LENIENT` (R23). -/
  lenient : Bool
  /-- `POLICY` (R24). -/
  policy  : Bool
  /-- `ERR` (R25): 0, or the code of the fatal failure. -/
  err     : BitVec 4
  /-- `ERR_OFF` (R26). -/
  errOff  : Nat
  /-- `SI_VALID` (R27). -/
  siValid : Bool
  /-- `MB.*` (R28). -/
  mb      : MetaBlock
  /-- `FIRST` (R29). -/
  first   : Bool
  /-- `SEEN_SI` (R29). -/
  seenSi  : BitVec 2
  /-- `SI.*` (R30). -/
  si      : StreamInfo
  /-- `FH.*` (R31, R32). -/
  fh      : FrameHeader
  /-- `CH` (R33). -/
  ch      : BitVec 4
  /-- `SF[0..7]` (R34). -/
  sf      : Vector Subframe 8
  /-- `FR.*` (R35). -/
  fr      : Footer
  /-- `OUT` (R40), oldest event first. -/
  out     : List Event
  /-- `IN` (20 R50), as the cells of its bytes that are not 0, addresses rising (log 4). -/
  mem     : List Host.Cell
  /-- `LEN` (20 R50). -/
  len     : Nat
  /-- The parameters of 00 R8 that are configuration (00 R6, 92 D33, log 22). -/
  params  : Params
  /-- The model's own: what the host does at the coming boundaries of steps (log 2). -/
  host    : List HostAction
  /-- The model's own: the element read next (log 1). -/
  elem    : Elem
  /-- The model's own: `v` of `DecodeIndex` while it runs (44 R200, log 1). -/
  idxAcc  : BitVec 36
  /-- The model's own: continuation bytes of the index still to read (44 R200, log 1). -/
  idxLeft : Nat
  /-- The model's own: `n` of `DecodeIndex` while it runs (44 R200, log 1). -/
  idxLen  : BitVec 3
  deriving DecidableEq, Repr

/-- `MB.*` after reset. DESIGN CHOICE (log 5): the spec gives no value and forbids zero (R42, 70 R341), so
every record register without a reset value holds 1. -/
def MetaBlock.reset : MetaBlock := { isLast := true, blockType := 1, length := 1 }

/-- `SI.*` after reset (DESIGN CHOICE, log 5). -/
def StreamInfo.reset : StreamInfo :=
  { minBlockSize := 1, maxBlockSize := 1, minFrameSize := 1, maxFrameSize := 1, sampleRateHz := 1,
    channelCount := 1, bitsPerSample := 1, totalSamples := 1, contentHash := 1 }

/-- `FH.*` after reset (DESIGN CHOICE, log 5). -/
def FrameHeader.reset : FrameHeader :=
  { start := 1, blockingStrategyFixed := true, blockSizeCode := 1, sampleRateCode := 1,
    channelAssignmentCode := 1, sampleSizeCode := 1, frameOrSampleIndex := 1, indexBytes := 1,
    extendedBlockSize := 1, extendedSampleRate := 1, headerCrc8 := 1, headerCrcOk := true, blockSize := 1,
    sampleRateHz := 1, channelCount := 1, sampleSize := 1 }

/-- `SF[c]` after reset (DESIGN CHOICE, log 5). -/
def Subframe.reset : Subframe :=
  { subframeType := .constant, wastedBitsPresent := true, wastedBitCount := 1, width := 1, samples := [] }

/-- `FR.*` after reset (DESIGN CHOICE, log 5). -/
def Footer.reset : Footer := { footerCrc16 := 1, footerCrcOk := true }

/-- The machine right after reset: the table of R42 (70 R340), the record registers as log 5 names them, and
no input, the default parameters (00 R8), no host action and no element under way (log 1, log 2, log 3, log 22). -/
def State.reset : State :=
  { cur := 0, phase := .idle, lenient := false, policy := false, err := 0, errOff := 0, siValid := false,
    mb := MetaBlock.reset, first := true, seenSi := 0, si := StreamInfo.reset, fh := FrameHeader.reset,
    ch := 0, sf := Vector.replicate 8 Subframe.reset, fr := Footer.reset, out := [], mem := [], len := 0,
    params := defaultParams, host := [], elem := .rest, idxAcc := 0, idxLeft := 0, idxLen := 0 }

end Sys2Proof.Machine
end

