-- ==== Sys2Proof/Machine/Ops.lean ====
section
/-! DEFINITION. The named operations of the framer: reading the input space, the BitReader (spec/40), the
failures and reports (spec/60), the output list, and reset, the only way back from a failure. -/

namespace Sys2Proof.Machine

/-- What one step answers. -/
abbrev Res := Host.Outcome State Fault Refusal

/-! ## The input space (20 R50 to R53)

`IN` is held as the cells of its nonzero bytes, addresses strictly rising (log 4). -/

/-- The byte of the cell at `a`; a byte that is not listed is 0. -/
def Memory.read : List Host.Cell → Nat → Byte
  | [], _ => 0
  | (k, v) :: m, a => if k = a then v else Memory.read m a

/-- Put `v` at `a`, keeping the form: rising addresses, no cell of value 0. -/
def Memory.write : List Host.Cell → Nat → Byte → List Host.Cell
  | [], a, v => if v = 0 then [] else [(a, v)]
  | (k, w) :: m, a, v =>
    if a < k then (if v = 0 then (k, w) :: m else (a, v) :: (k, w) :: m)
    else if a = k then (if v = 0 then m else (a, v) :: m)
    else (k, w) :: Memory.write m a v

/-- Put bytes at `a`, `a + 1`, … -/
def Memory.writeBytes (m : List Host.Cell) (a : Nat) : List Byte → List Host.Cell
  | [] => m
  | b :: bs => Memory.writeBytes (Memory.write m a b) (a + 1) bs

/-- The cells of a byte array that begins at address `a`. -/
def Memory.ofBytes (a : Nat) : List Byte → List Host.Cell
  | [] => []
  | b :: bs => if b = 0 then Memory.ofBytes (a + 1) bs else (a, b) :: Memory.ofBytes (a + 1) bs

/-- Addresses rise from `lo` on and no cell holds 0. -/
def Memory.wfFrom (lo : Nat) : List Host.Cell → Bool
  | [] => true
  | (k, v) :: m => lo ≤ k && v != 0 && Memory.wfFrom (k + 1) m

/-- The canonical form of the input space. -/
def Memory.wf (m : List Host.Cell) : Bool := Memory.wfFrom 0 m

/-- Every cell lies below address `n`. -/
def Memory.below (n : Nat) (m : List Host.Cell) : Bool := m.all fun c => c.1 < n

/-- `IN[a]`, where it exists: addresses `0` to `LEN - 1` (20 R50). -/
def State.readByte? (s : State) (a : Nat) : Option Byte :=
  if a < s.len then some (Memory.read s.mem a) else none

/-- `IN[a]`, and 0 where there is no such byte; the value past the end is never used (20 R58, log 6). -/
def State.readByte (s : State) (a : Nat) : Byte := (s.readByte? a).getD 0

/-- `Bytes(a, b)` (00 R11). -/
def State.bytes (s : State) (a b : Nat) : List Byte := (List.range (b - a)).map fun i => s.readByte (a + i)

/-- `bit(k)`: stream bit `k` is bit `7 - k mod 8` of byte `k div 8` (00 R9). -/
def State.bitAt (s : State) (k : Nat) : Bool := (s.readByte (k / 8)).getLsbD (7 - k % 8)

/-- The `n` stream bits from the cursor on. -/
def State.streamBits (s : State) (n : Nat) : Bits := (List.range n).map fun i => s.bitAt (s.cur + i)

/-! ## Failures, reports, events -/

/-- The code of a failure (60 R300). -/
def Failure.code : Failure → BitVec 4
  | .badSignature => 1
  | .missingStreamInfo => 2
  | .invalidStreamInfo => 3
  | .frameSyncLost => 4
  | .malformedIndex => 5
  | .headerChecksumMismatch => 6
  | .frameChecksumMismatch => 7
  | .reservedSubframeType => 8
  | .unsupportedSubframeType => 9
  | .outOfData => 10

/-- `emit ev` (10 R40). -/
def State.emit (s : State) (ev : Event) : State := { s with out := s.out ++ [ev] }

/-- `raise E(off)`, the whole of taking a failure (60 R301): `ERR`, `ERR_OFF`, the `Error` event, `P_ERR`.
Nothing else is saved or changed; no element is under way any more. -/
def State.raise (s : State) (e : Failure) (off : Nat) : State :=
  { s with err := e.code, errOff := off, out := s.out ++ [.error e.code off], phase := .err, elem := .rest }

/-- A step that raises. -/
def fail (s : State) (e : Failure) (off : Nat) : Res := .next (s.raise e off)

/-- `report E(off)`, the lenient path of a checksum mismatch (60 R302). -/
def State.report (s : State) (e : Failure) (off : Nat) : State := s.emit (.report e.code off)

/-- `RESET` (70 R340, 10 R42): every register at its reset value. The input and the parameters are arguments of the
machine, not state, and stay (log 3, log 22); so do the host's coming actions. There is no other return from a
failure (60 R308). -/
def State.toReset (s : State) : State :=
  { State.reset with mem := s.mem, len := s.len, params := s.params, host := s.host }

/-! ## The BitReader (spec/40) -/

/-- `rem = 8*LEN - CUR` (40 R100). -/
def State.rem (s : State) : Nat := 8 * s.len - s.cur

/-- The byte offset of the cursor (40 R108). -/
def State.off (s : State) : Nat := s.cur / 8

/-- Move the cursor past `n` bits. -/
def State.advance (s : State) (n : Nat) : State := { s with cur := s.cur + n }

/-- Go on with the element `e`. -/
def State.goto (s : State) (e : Elem) : State := { s with elem := e }

/-- Write `MB.*`. -/
def State.setMb (s : State) (mb : MetaBlock) : State := { s with mb := mb }

/-- Write `SI.*`. -/
def State.setSi (s : State) (si : StreamInfo) : State := { s with si := si }

/-- Write `FH.*`. -/
def State.setFh (s : State) (fh : FrameHeader) : State := { s with fh := fh }

/-- `n` bits are needed: `OutOfData` at the cursor's byte when fewer remain, the cursor unmoved; else they are
consumed (40 R101, R104, R105). -/
def consume (n : Nat) (s : State) (k : State → Res) : Res :=
  if s.rem < n then fail s .outOfData s.off else k (s.advance n)

/-- `readBits(n)` (40 R101) of a field whose value the decoder has read: `k` goes on with the cursor past it.
A width outside the contract is refused (40 R107, log 12). -/
def readBits (n : Nat) (s : State) (k : State → Res) : Res :=
  if n = 0 ∨ Config.nMax < n then .refused (.readBitsWidth n) else consume n s k

/-- `m` reads of 8 bits, one after another (42 R149). -/
def readBytes : Nat → State → (State → Res) → Res
  | 0, s, k => k s
  | m + 1, s, k => readBits 8 s fun s => readBytes m s k

/-- `readUnary0()` (40 R102) of a code of `n` bits, its terminating 1-bit included, as the decoder counted
them. A run without a terminator is counted past the end of the input, so that it fails here. -/
def readUnary0 (n : Nat) (s : State) (k : State → Res) : Res := consume n s k

/-- `alignToByte()` (40 R103). -/
def State.alignToByte (s : State) : State := { s with cur := (s.cur + 7) / 8 * 8 }

/-- `skipBytes(n)` (40 R104). -/
def skipBytes (n : Nat) (s : State) (k : State → Res) : Res := consume (8 * n) s k

/-! ## The subframe register file (10 R34) -/

/-- `SF[CH]`, and a fault where there is no such entry (log 13). -/
def withSubframe (s : State) (k : Subframe → Res) : Res :=
  match s.sf[s.ch.toNat]? with
  | some f => k f
  | none => .fault (.noSubframe s.ch)

/-- Write `SF[CH]`. -/
def State.setSubframe (s : State) (f : Subframe) : State := { s with sf := s.sf.setIfInBounds s.ch.toNat f }

end Sys2Proof.Machine
end

