-- ==== Sys2Proof/Machine/Crc.lean ====
section
/-! DEFINITION. The two checksum generators (spec/45): the byte-wise functions of R216 and R219, which the checks
use, and the bit-serial accumulators of R222, an implementation of them that is not state (10 R37). The rules give
both generators one form, which the generator polynomial and the conventions fill in (`CrcParams`). -/

namespace Sys2Proof.Machine

variable {n : Nat}

/-- One shift of the register (the inner loop of R216, R219). -/
def crcShift (poly c : BitVec n) : BitVec n := if c.msb then (c <<< 1) ^^^ poly else c <<< 1

/-- One byte into the register (R216, R219). -/
def crcByte (poly c : BitVec n) (b : Byte) : BitVec n :=
  Nat.repeat (crcShift poly) 8 (c ^^^ (b.setWidth n <<< (n - 8)))

/-- The checksum of a byte sequence under the conventions `p` (R216, R219). With `lsbFirst` the bits of each byte
enter least significant first and the result is reversed (what a reflected CRC is, PRESUMED, log 22). -/
def crc (p : CrcParams n) (seq : List Byte) : BitVec n :=
  let c := seq.foldl (fun c b => crcByte p.poly c (if p.lsbFirst then b.reverse else b)) p.init
  (if p.lsbFirst then c.reverse else c) ^^^ p.xorOut

/-- `CRC8(seq)` (R216). -/
def crc8 (p : CrcParams 8) (seq : List Byte) : BitVec 8 := crc p seq

/-- `CRC16(seq)` (R219). -/
def crc16 (p : CrcParams 16) (seq : List Byte) : BitVec 16 := crc p seq

/-- An accumulator `ACC8`, `ACC16` fed with one stream bit (R222). -/
def accBit (poly a : BitVec n) (d : Bool) : BitVec n := if a.msb ^^ d then (a <<< 1) ^^^ poly else a <<< 1

end Sys2Proof.Machine
end

