-- ==== Sys2Proof/Machine/Operands.lean ====
section
/-! DEFINITION. How each operand is assembled from the bits it was read from (30 R86, R90). Every field is
unsigned but a sample. -/

namespace Sys2Proof.Machine

/-- `SI.channelCount`: the 3-bit field plus 1 (42 R146). -/
def siChannelCount (field : BitVec 3) : BitVec 4 := field.setWidth 4 + 1

/-- `SI.bitsPerSample`: the 5-bit field plus 1 (42 R147). -/
def siBitsPerSample (field : BitVec 5) : BitVec 6 := field.setWidth 6 + 1

/-- `FH.blockSize` from `XBS8` (43 R172). -/
def blockSizeOf8 (field : BitVec 8) : BitVec 17 := field.setWidth 17 + 1

/-- `FH.blockSize` from `XBS16` (43 R173). -/
def blockSizeOf16 (field : BitVec 16) : BitVec 17 := field.setWidth 17 + 1

/-- `FH.sampleRateHz` from `XSR8K`, kHz (43 R178). -/
def rateOfKHz (field : BitVec 8) : BitVec 20 := field.setWidth 20 * 1000

/-- `FH.sampleRateHz` from `XSR16`, Hz (43 R179). -/
def rateOfHz (field : BitVec 16) : BitVec 20 := field.setWidth 20

/-- `FH.sampleRateHz` from `XSR16T`, tens of Hz (43 R180). -/
def rateOfTensHz (field : BitVec 16) : BitVec 20 := field.setWidth 20 * 10

/-- Append the six data bits of a continuation byte to the index (44 R200, R204). -/
def indexAppend (v : BitVec 36) (data : BitVec 6) : BitVec 36 := v <<< 6 ||| data.setWidth 36

/-- `classify(t)` (46 R236). -/
def classify (t : BitVec 6) : SubframeType :=
  if t.toNat = 0 then .constant
  else if t.toNat = 1 then .verbatim
  else if t.toNat < 8 then .reserved
  else if t.toNat < 16 then .fixed (t.extractLsb' 0 3)
  else if t.toNat < 32 then .reserved
  else .lpc ((t.extractLsb' 0 5).setWidth 6 + 1)

/-- `side(cac, c)`: 1 when subframe `c` is the side channel (43 R184; which channel it is, PRESUMED, 93 U8,
log 8). -/
def side (cls : ChannelClass) (c : Nat) : Nat :=
  match cls with
  | .leftSide => if c = 1 then 1 else 0
  | .sideRight => if c = 0 then 1 else 0
  | .midSide => if c = 1 then 1 else 0
  | .independent _ | .reserved => 0

/-- The first step of the sample width, `d = FH.sampleSize + side(cac, c)` (46 R244). -/
def channelWidth (sampleSize : BitVec 6) (cls : ChannelClass) (c : Nat) : Nat := sampleSize.toNat + side cls c

/-- The second step, `w = d - wasted`, an integer that may be below 1 (46 R244). -/
def sampleWidth (d wasted : Nat) : Int := (d : Int) - (wasted : Int)

/-- `sext_N(v)` (00 R10): the low `n` bits of `v` read as two's complement. -/
def sext (n : Nat) (v : Nat) : Int :=
  let u := v % 2 ^ n
  if 2 * u < 2 ^ n then (u : Int) else (u : Int) - (2 ^ n : Nat)

end Sys2Proof.Machine
end

