-- ==== Sys2Proof/Machine/Flags.lean ====
section
/-! DEFINITION. The flags of the framer (10 R36) and what sets each, the two checksum verdicts among them;
and the record of an emitted frame (10 R41), whose optional fields are present by code. -/

namespace Sys2Proof.Machine

/-- `FH.blockingStrategyFixed = 1 - b` (43 R163). -/
def strategyFixed (b : Bool) : Bool := !b

/-- `SEEN_SI <- min(SEEN_SI + 1, 2)` (41 R125). -/
def seenNext (n : BitVec 2) : BitVec 2 := if n.toNat + 1 < 2 then n + 1 else 2

/-- What the header CRC-8 at byte `c` must be (43 R190, 45 R217). -/
def State.wantCrc8 (s : State) (c : Nat) : BitVec 8 := crc8 s.params.crc8 (s.bytes s.fh.start c)

/-- What the footer CRC-16 at byte `e` must be (47 R261, 45 R220). -/
def State.wantCrc16 (s : State) (e : Nat) : BitVec 16 := crc16 s.params.crc16 (s.bytes s.fh.start e)

/-- After a checksum comparison: go on when it agrees; else raise under the strict policy and report under the
lenient one (43 R190, 47 R262). -/
def checkVerdict (ok : Bool) (e : Failure) (off : Nat) (s : State) (k : State → Res) : Res :=
  if ok then k s else if s.policy then k (s.report e off) else fail s e off

/-- `extendedBlockSize` is present (10 R31, R41). -/
def hasExtendedBlockSize (p : Params) (code : BitVec 4) : Bool :=
  match bsTable p code with
  | .extra8 | .extra16 => true
  | .reserved | .literal _ => false

/-- `extendedSampleRate` is present (10 R31, R41). -/
def hasExtendedSampleRate (p : Params) (code : BitVec 4) : Bool :=
  match srTable p code with
  | .extra8kHz | .extra16Hz | .extra16TensHz => true
  | .fromStreamInfo | .literal _ | .reserved => false

/-- The thirteen header values of a frame (10 R41). -/
def FrameHeader.record (p : Params) (fh : FrameHeader) : HeaderRecord :=
  { blockingStrategyFixed := fh.blockingStrategyFixed
    blockSizeCode := fh.blockSizeCode
    sampleRateCode := fh.sampleRateCode
    channelAssignmentCode := fh.channelAssignmentCode
    sampleSizeCode := fh.sampleSizeCode
    frameOrSampleIndex := fh.frameOrSampleIndex
    extendedBlockSize := if hasExtendedBlockSize p fh.blockSizeCode then some fh.extendedBlockSize else none
    extendedSampleRate := if hasExtendedSampleRate p fh.sampleRateCode then some fh.extendedSampleRate else none
    headerCrc8 := fh.headerCrc8
    blockSize := fh.blockSize
    sampleRateHz := fh.sampleRateHz
    channelCount := fh.channelCount
    sampleSize := fh.sampleSize }

/-- A subframe as a frame's record shows it (10 R41). -/
def Subframe.record (f : Subframe) : SubframeRecord :=
  { subframeType := f.subframeType, wastedBitsPresent := f.wastedBitsPresent,
    wastedBitCount := f.wastedBitCount, samples := f.samples }

/-- The record of a `Frame` event (10 R41, 47 R263). -/
def State.frameRecord (s : State) : FrameRecord :=
  { header := s.fh.record s.params
    subframes := (s.sf.toList.take s.fh.channelCount.toNat).map Subframe.record
    footerCrc16 := s.fr.footerCrc16
    headerCrcOk := s.fh.headerCrcOk
    footerCrcOk := s.fr.footerCrcOk }

end Sys2Proof.Machine
end

