-- ==== Sys2Proof/Machine/Footer.lean ====
section
/-! DEFINITION. The frame footer (spec/47): padding, CRC-16, and the `Frame` event. -/

namespace Sys2Proof.Machine

/-- `EmitFrame` (47 R263): the frame's record, and the framer stands at a frame boundary again. -/
def emitFrame (s : State) : Res :=
  .next { s with out := s.out ++ [.frame s.frameRecord], phase := .frame, elem := .rest }

/-- `PAD` (47 R260): the cursor moves to the byte boundary; the bits are not looked at. -/
def execPad (_bits : Bits) (s : State) : Res := .next (s.alignToByte.goto .crc16)

/-- `CRC16` (47 R261, R262). -/
def execCrc16 (v : BitVec 16) (s : State) : Res :=
  let e := s.off
  readBits 16 s fun s =>
  let ok := v == s.wantCrc16 e
  let s := { s with fr := { footerCrc16 := v, footerCrcOk := ok } }
  checkVerdict ok .frameChecksumMismatch e s emitFrame

end Sys2Proof.Machine
end

