-- ==== Sys2Proof/Machine/FrameHeader.lean ====
section
/-! DEFINITION. The frame header (spec/43): the fixed word, the rows of its four code fields, the escape
fields and the CRC-8. Rule numbers are those of that file. `FH.WORD` reads and checks the fields (R161 to
R168); the code rows give the codes their effect, after the index, in the order of R160; a reserved code
hands over to its row at once (log 20). -/

namespace Sys2Proof.Machine

/-- `FH.WORD` (R160 to R168). -/
def execFhWord (sync : BitVec 14) (z1 b : Bool) (bsc src cac : BitVec 4) (ssc : BitVec 3) (z2 : Bool)
    (s : State) : Res :=
  let p := s.off
  let cfg := s.params
  let s := s.setFh { s.fh with start := p }
  readBits 14 s fun s =>
  if sync ≠ cfg.sync14 then fail s .frameSyncLost p
  else
    readBits 1 s fun s =>
    if z1 then fail s .frameSyncLost (p + 1)
    else
      readBits 1 s fun s =>
      let s := s.setFh { s.fh with blockingStrategyFixed := strategyFixed b }
      readBits 4 s fun s =>
      let s := s.setFh { s.fh with blockSizeCode := bsc }
      if bsTable cfg bsc = .reserved then .next (s.goto .bsCode)
      else
        readBits 4 s fun s =>
        let s := s.setFh { s.fh with sampleRateCode := src }
        if srTable cfg src = .reserved then .next (s.goto .srCode)
        else
          readBits 4 s fun s =>
          let s := s.setFh { s.fh with channelAssignmentCode := cac }
          if caTable cfg cac = .reserved then .next (s.goto .caCode)
          else
            readBits 3 s fun s =>
            let s := s.setFh { s.fh with sampleSizeCode := ssc }
            if ssTable cfg ssc = .reserved then .next (s.goto .ssCode)
            else
              readBits 1 s fun s =>
              if z2 then fail s .frameSyncLost (p + 3) else .next (s.goto .idx)

/-- The block size a code stands for (R171 to R174): a literal, an escape field that follows, or a reserved
code. -/
def blockSizeRow (code : BitVec 4) (s : State) : Res :=
  match bsTable s.params code with
  | .reserved => fail s .frameSyncLost (s.fh.start + 2)
  | .literal n => .next { s with fh := { s.fh with blockSize := n }, elem := .srCode }
  | .extra8 => .next (s.goto .xbs8)
  | .extra16 => .next (s.goto .xbs16)

/-- The sample rate a code stands for (R177 to R181, R189). -/
def sampleRateRow (code : BitVec 4) (s : State) : Res :=
  match srTable s.params code with
  | .reserved => fail s .frameSyncLost (s.fh.start + 2)
  | .fromStreamInfo => .next { s with fh := { s.fh with sampleRateHz := s.si.sampleRateHz }, elem := .caCode }
  | .literal hz => .next { s with fh := { s.fh with sampleRateHz := hz }, elem := .caCode }
  | .extra8kHz => .next (s.goto .xsr8k)
  | .extra16Hz => .next (s.goto .xsr16)
  | .extra16TensHz => .next (s.goto .xsr16t)

/-- The channel count a code stands for (R183, R191). -/
def channelRow (code : BitVec 4) (s : State) : Res :=
  match caTable s.params code with
  | .reserved => fail s .frameSyncLost (s.fh.start + 3)
  | .independent n => .next { s with fh := { s.fh with channelCount := n }, elem := .ssCode }
  | .leftSide | .sideRight | .midSide => .next { s with fh := { s.fh with channelCount := 2 }, elem := .ssCode }

/-- The sample size a code stands for (R186 to R188). -/
def sampleSizeRow (code : BitVec 3) (s : State) : Res :=
  match ssTable s.params code with
  | .reserved => fail s .frameSyncLost (s.fh.start + 3)
  | .fromStreamInfo => .next { s with fh := { s.fh with sampleSize := s.si.bitsPerSample }, elem := .crc8 }
  | .literal n => .next { s with fh := { s.fh with sampleSize := n }, elem := .crc8 }

/-! ## The code rows -/

/-- `BS.0000` (R174). -/
def execBs0000 (s : State) : Res := blockSizeRow 0b0000 s

/-- `BS.0001` (R171). -/
def execBs0001 (s : State) : Res := blockSizeRow 0b0001 s

/-- `BS.0010` (R171). -/
def execBs0010 (s : State) : Res := blockSizeRow 0b0010 s

/-- `BS.0011` (R171). -/
def execBs0011 (s : State) : Res := blockSizeRow 0b0011 s

/-- `BS.0100` (R171). -/
def execBs0100 (s : State) : Res := blockSizeRow 0b0100 s

/-- `BS.0101` (R171). -/
def execBs0101 (s : State) : Res := blockSizeRow 0b0101 s

/-- `BS.0110` (R172). -/
def execBs0110 (s : State) : Res := blockSizeRow 0b0110 s

/-- `BS.0111` (R173). -/
def execBs0111 (s : State) : Res := blockSizeRow 0b0111 s

/-- `BS.1000` (R171). -/
def execBs1000 (s : State) : Res := blockSizeRow 0b1000 s

/-- `BS.1001` (R171). -/
def execBs1001 (s : State) : Res := blockSizeRow 0b1001 s

/-- `BS.1010` (R171). -/
def execBs1010 (s : State) : Res := blockSizeRow 0b1010 s

/-- `BS.1011` (R171). -/
def execBs1011 (s : State) : Res := blockSizeRow 0b1011 s

/-- `BS.1100` (R171). -/
def execBs1100 (s : State) : Res := blockSizeRow 0b1100 s

/-- `BS.1101` (R171). -/
def execBs1101 (s : State) : Res := blockSizeRow 0b1101 s

/-- `BS.1110` (R171). -/
def execBs1110 (s : State) : Res := blockSizeRow 0b1110 s

/-- `BS.1111` (R171). -/
def execBs1111 (s : State) : Res := blockSizeRow 0b1111 s

/-- `SR.0000` (R177). -/
def execSr0000 (s : State) : Res := sampleRateRow 0b0000 s

/-- `SR.0001` (R181). -/
def execSr0001 (s : State) : Res := sampleRateRow 0b0001 s

/-- `SR.0010` (R181). -/
def execSr0010 (s : State) : Res := sampleRateRow 0b0010 s

/-- `SR.0011` (R181). -/
def execSr0011 (s : State) : Res := sampleRateRow 0b0011 s

/-- `SR.0100` (R181). -/
def execSr0100 (s : State) : Res := sampleRateRow 0b0100 s

/-- `SR.0101` (R181). -/
def execSr0101 (s : State) : Res := sampleRateRow 0b0101 s

/-- `SR.0110` (R181). -/
def execSr0110 (s : State) : Res := sampleRateRow 0b0110 s

/-- `SR.0111` (R181). -/
def execSr0111 (s : State) : Res := sampleRateRow 0b0111 s

/-- `SR.1000` (R181). -/
def execSr1000 (s : State) : Res := sampleRateRow 0b1000 s

/-- `SR.1001` (R181). -/
def execSr1001 (s : State) : Res := sampleRateRow 0b1001 s

/-- `SR.1010` (R181). -/
def execSr1010 (s : State) : Res := sampleRateRow 0b1010 s

/-- `SR.1011` (R181). -/
def execSr1011 (s : State) : Res := sampleRateRow 0b1011 s

/-- `SR.1100` (R178). -/
def execSr1100 (s : State) : Res := sampleRateRow 0b1100 s

/-- `SR.1101` (R179). -/
def execSr1101 (s : State) : Res := sampleRateRow 0b1101 s

/-- `SR.1110` (R180). -/
def execSr1110 (s : State) : Res := sampleRateRow 0b1110 s

/-- `SR.1111` (R189). -/
def execSr1111 (s : State) : Res := sampleRateRow 0b1111 s

/-- `CA.0000` (R183). -/
def execCa0000 (s : State) : Res := channelRow 0b0000 s

/-- `CA.0001` (R183). -/
def execCa0001 (s : State) : Res := channelRow 0b0001 s

/-- `CA.0010` (R183). -/
def execCa0010 (s : State) : Res := channelRow 0b0010 s

/-- `CA.0011` (R183). -/
def execCa0011 (s : State) : Res := channelRow 0b0011 s

/-- `CA.0100` (R183). -/
def execCa0100 (s : State) : Res := channelRow 0b0100 s

/-- `CA.0101` (R183). -/
def execCa0101 (s : State) : Res := channelRow 0b0101 s

/-- `CA.0110` (R183). -/
def execCa0110 (s : State) : Res := channelRow 0b0110 s

/-- `CA.0111` (R183). -/
def execCa0111 (s : State) : Res := channelRow 0b0111 s

/-- `CA.1000` (R183). -/
def execCa1000 (s : State) : Res := channelRow 0b1000 s

/-- `CA.1001` (R183). -/
def execCa1001 (s : State) : Res := channelRow 0b1001 s

/-- `CA.1010` (R183). -/
def execCa1010 (s : State) : Res := channelRow 0b1010 s

/-- `CA.1011` (R191). -/
def execCa1011 (s : State) : Res := channelRow 0b1011 s

/-- `CA.1100` (R191). -/
def execCa1100 (s : State) : Res := channelRow 0b1100 s

/-- `CA.1101` (R191). -/
def execCa1101 (s : State) : Res := channelRow 0b1101 s

/-- `CA.1110` (R191). -/
def execCa1110 (s : State) : Res := channelRow 0b1110 s

/-- `CA.1111` (R191). -/
def execCa1111 (s : State) : Res := channelRow 0b1111 s

/-- `SS.000` (R186). -/
def execSs000 (s : State) : Res := sampleSizeRow 0b000 s

/-- `SS.001` (R187). -/
def execSs001 (s : State) : Res := sampleSizeRow 0b001 s

/-- `SS.010` (R187). -/
def execSs010 (s : State) : Res := sampleSizeRow 0b010 s

/-- `SS.011` (R188). -/
def execSs011 (s : State) : Res := sampleSizeRow 0b011 s

/-- `SS.100` (R187). -/
def execSs100 (s : State) : Res := sampleSizeRow 0b100 s

/-- `SS.101` (R187). -/
def execSs101 (s : State) : Res := sampleSizeRow 0b101 s

/-- `SS.110` (R187). -/
def execSs110 (s : State) : Res := sampleSizeRow 0b110 s

/-- `SS.111` (R188). -/
def execSs111 (s : State) : Res := sampleSizeRow 0b111 s


/-! ## Escape fields and CRC-8 -/

/-- `XBS8` (R172). -/
def execXbs8 (v : BitVec 8) (s : State) : Res :=
  readBits 8 s fun s =>
  .next { s with
    fh := { s.fh with extendedBlockSize := v.setWidth 16, blockSize := blockSizeOf8 v }, elem := .srCode }

/-- `XBS16` (R173). -/
def execXbs16 (v : BitVec 16) (s : State) : Res :=
  readBits 16 s fun s =>
  .next { s with fh := { s.fh with extendedBlockSize := v, blockSize := blockSizeOf16 v }, elem := .srCode }

/-- `XSR8K` (R178). -/
def execXsr8k (v : BitVec 8) (s : State) : Res :=
  readBits 8 s fun s =>
  .next { s with
    fh := { s.fh with extendedSampleRate := v.setWidth 16, sampleRateHz := rateOfKHz v }, elem := .caCode }

/-- `XSR16` (R179). -/
def execXsr16 (v : BitVec 16) (s : State) : Res :=
  readBits 16 s fun s =>
  .next { s with fh := { s.fh with extendedSampleRate := v, sampleRateHz := rateOfHz v }, elem := .caCode }

/-- `XSR16T` (R180). -/
def execXsr16t (v : BitVec 16) (s : State) : Res :=
  readBits 16 s fun s =>
  .next { s with fh := { s.fh with extendedSampleRate := v, sampleRateHz := rateOfTensHz v }, elem := .caCode }

/-- The start of the channel loop (48 R275, R276): `CH` is 0, and the first subframe follows; the footer, for
a count of 0, which no code gives. -/
def beginChannels (s : State) : Res :=
  .next { s with ch := 0, elem := if 0 < s.fh.channelCount.toNat then .sfh else .pad }

/-- `CRC8` (R190). -/
def execCrc8 (v : BitVec 8) (s : State) : Res :=
  let c := s.off
  readBits 8 s fun s =>
  let ok := v == s.wantCrc8 c
  let s := s.setFh { s.fh with headerCrc8 := v, headerCrcOk := ok }
  checkVerdict ok .headerChecksumMismatch c s beginChannels

end Sys2Proof.Machine
end

