-- ==== Sys2Proof/Machine/Index.lean ====
section
/-! DEFINITION. The variable-length index (spec/44), one byte a step: the form of the first byte says how
many continuation bytes follow. Rule numbers are those of that file. -/

namespace Sys2Proof.Machine

/-- The index is complete (R200): its registers are written, and the block size follows (43 R160). -/
def indexDone (v : BitVec 36) (n : BitVec 3) (s : State) : Res :=
  .next { s with fh := { s.fh with frameOrSampleIndex := v, indexBytes := n }, elem := .bsCode }

/-- A first byte of `n` leading 1-bits, 2 to 7, that contributes `v`; `n - 1` bytes follow (R203). -/
def indexFirst (n : BitVec 3) (v : BitVec 36) (s : State) : Res :=
  readBits 8 s fun s =>
  .next { s with idxAcc := v, idxLeft := n.toNat - 1, idxLen := n, elem := .idxCont }

/-- A first byte that is no first byte (R207). -/
def indexBad (s : State) : Res :=
  let a := s.off
  readBits 8 s fun s => fail s .malformedIndex a

/-- `IDX.1` (R202). -/
def execIdx1 (v : BitVec 7) (s : State) : Res := readBits 8 s fun s => indexDone (v.setWidth 36) 1 s

/-- `IDX.2` (R203). -/
def execIdx2 (v : BitVec 5) (s : State) : Res := indexFirst 2 (v.setWidth 36) s

/-- `IDX.3` (R203). -/
def execIdx3 (v : BitVec 4) (s : State) : Res := indexFirst 3 (v.setWidth 36) s

/-- `IDX.4` (R203). -/
def execIdx4 (v : BitVec 3) (s : State) : Res := indexFirst 4 (v.setWidth 36) s

/-- `IDX.5` (R203). -/
def execIdx5 (v : BitVec 2) (s : State) : Res := indexFirst 5 (v.setWidth 36) s

/-- `IDX.6` (R203). -/
def execIdx6 (v : BitVec 1) (s : State) : Res := indexFirst 6 (v.setWidth 36) s

/-- `IDX.7` (R203): the first byte contributes no bit. -/
def execIdx7 (s : State) : Res := indexFirst 7 0 s

/-- `IDX.BAD10` (R207). -/
def execIdxBad10 (_x : BitVec 6) (s : State) : Res := indexBad s

/-- `IDX.BADFF` (R207). -/
def execIdxBadFF (s : State) : Res := indexBad s

/-- `IDX.CONT` (R204): six more bits of the index, or `MalformedIndex` at this byte. -/
def execIdxCont (top : BitVec 2) (data : BitVec 6) (s : State) : Res :=
  let a := s.off
  readBits 8 s fun s =>
  if top ≠ 0b10 then fail s .malformedIndex a
  else
    let v := indexAppend s.idxAcc data
    let s := { s with idxAcc := v, idxLeft := s.idxLeft - 1 }
    if s.idxLeft = 0 then indexDone v s.idxLen s else .next (s.goto .idxCont)

end Sys2Proof.Machine
end

