-- ==== Sys2Proof/Machine/Metadata.lean ====
section
/-! DEFINITION. The signature and the metadata chain (spec/41), and the StreamInfo body (spec/42). Rule
numbers are those of these two files. -/

namespace Sys2Proof.Machine

/-- `EndOfChain` (R128): exactly one StreamInfo block, then the `StreamInfo` event and `P_FRAME`. -/
def endOfChain (s : State) : Res :=
  if s.seenSi ≠ 1 then fail s .missingStreamInfo s.off
  else .next { s with siValid := true, out := s.out ++ [.streamInfo s.si], phase := .frame, elem := .rest }

/-- The end of a block (R127): the chain ends at the last one, else the next header follows. -/
def endOfBlock (s : State) : Res := if s.mb.isLast then endOfChain s else .next (s.goto .mbh)

/-- A metadata block header (R121 to R124, R126), each field checked at once; `MB.BODY` or `SI.BODY`
follows. -/
def blockHeader (isLast : Bool) (blockType : BitVec 7) (length : BitVec 24) (s : State) : Res :=
  let a := s.off
  let t := s.params.tStreamInfo
  readBits 1 s fun s =>
  let s := s.setMb { s.mb with isLast := isLast }
  readBits 7 s fun s =>
  let s := s.setMb { s.mb with blockType := blockType }
  if s.first ∧ blockType ≠ t then fail s .missingStreamInfo a
  else
    let s := { s with first := false }
    readBits 24 s fun s =>
    let s := s.setMb { s.mb with length := length }
    if blockType ≠ t then .next (s.goto .mbBody)
    else if length ≠ Config.siLen then fail s .invalidStreamInfo (a + 1)
    else .next (s.goto .siBody)

/-- `SIG` (R120). -/
def execSig (word : BitVec 32) (s : State) : Res :=
  let a := s.off
  readBits 32 s fun s =>
  if word ≠ s.params.sig then fail s .badSignature a else .next { s with phase := .mbh, elem := .mbh }

/-- `MBH.SI` (R122 to R124). -/
def execMbhSi (isLast : Bool) (length : BitVec 24) (s : State) : Res :=
  blockHeader isLast s.params.tStreamInfo length s

/-- `MBH.OTHER` (R122, R123, R126). -/
def execMbhOther (isLast : Bool) (blockType : BitVec 7) (length : BitVec 24) (s : State) : Res :=
  blockHeader isLast blockType length s

/-- `SI.BODY` (R140 to R149), then the StreamInfo count (R125) and the end of the block. -/
def execSiBody (minBlock maxBlock : BitVec 16) (minFrame maxFrame : BitVec 24) (rate : BitVec 20)
    (channels : BitVec 3) (depth : BitVec 5) (total : BitVec 36) (hash : BitVec 128) (s : State) : Res :=
  let b := s.off
  readBits 16 s fun s =>
  let s := s.setSi { s.si with minBlockSize := minBlock }
  readBits 16 s fun s =>
  let s := s.setSi { s.si with maxBlockSize := maxBlock }
  readBits 24 s fun s =>
  let s := s.setSi { s.si with minFrameSize := minFrame }
  readBits 24 s fun s =>
  let s := s.setSi { s.si with maxFrameSize := maxFrame }
  readBits 20 s fun s =>
  let s := s.setSi { s.si with sampleRateHz := rate }
  if rate = 0 then fail s .invalidStreamInfo (b + 10)
  else
    readBits 3 s fun s =>
    let s := s.setSi { s.si with channelCount := siChannelCount channels }
    readBits 5 s fun s =>
    let s := s.setSi { s.si with bitsPerSample := siBitsPerSample depth }
    readBits 36 s fun s =>
    let s := s.setSi { s.si with totalSamples := total }
    readBytes 16 s fun s =>
    let s := s.setSi { s.si with contentHash := hash }
    endOfBlock { s with seenSi := seenNext s.seenSi }

/-- `MB.BODY` (R126): the body is skipped unread, then the block ends. -/
def execMbBody (s : State) : Res := skipBytes s.mb.length.toNat s endOfBlock

end Sys2Proof.Machine
end

