-- ==== Sys2Proof/Machine/Subframe.lean ====
section
/-! DEFINITION. The subframes (spec/46): header, wasted-bits count, width and samples; and the channel loop
(48 R276). Rule numbers without a file are those of spec/46. -/

namespace Sys2Proof.Machine

/-- The end of a subframe (48 R276): `CH` counts up; the next subframe follows, or the footer. -/
def nextChannel (s : State) : Res :=
  let ch := s.ch + 1
  .next { s with ch := ch, elem := if ch.toNat < s.fh.channelCount.toNat then .sfh else .pad }

/-- The width of the coded samples (R244, R245), then the sample loop, whose array begins empty (log 11). `u` is
the byte where the wasted-bits code starts. -/
def beginSamples (u : Nat) (s : State) : Res :=
  withSubframe s fun f =>
  let d := channelWidth s.fh.sampleSize (caTable s.params s.fh.channelAssignmentCode) s.ch.toNat
  let w := sampleWidth d f.wastedBitCount
  if w < 1 then fail s .frameSyncLost u
  else
    let s := s.setSubframe { f with width := BitVec.ofInt 6 w, samples := [] }
    if s.fh.blockSize = 0 then nextChannel s else .next (s.goto .sample)

/-- A subframe header (R235 to R242): zero bit, type code, and for the Verbatim type the wasted-bits flag; every
check follows its field at once. -/
def subframeHeader (z : Bool) (t : BitVec 6) (w : Bool) (s : State) : Res :=
  withSubframe s fun f =>
  let a := s.off
  readBits 1 s fun s =>
  if z then fail s .reservedSubframeType a
  else
    let a := s.off
    readBits 6 s fun s =>
    let f := { f with subframeType := classify t }
    let s := s.setSubframe f
    match classify t with
    | .reserved => fail s .reservedSubframeType a
    | .constant | .fixed _ | .lpc _ => fail s .unsupportedSubframeType a
    | .verbatim =>
      readBits 1 s fun s =>
      let f := { f with wastedBitsPresent := w }
      if w then .next ((s.setSubframe f).goto .wasted)
      else beginSamples s.off (s.setSubframe { f with wastedBitCount := 0 })

/-- `SFH.CONSTANT` (R241). -/
def execSfhConstant (w : Bool) (s : State) : Res := subframeHeader false 0 w s

/-- `SFH.VERBATIM` (R242). -/
def execSfhVerbatim (w : Bool) (s : State) : Res := subframeHeader false 1 w s

/-- `SFH.RSVD_00001x` (R238). -/
def execSfhRsvd00001x (x : BitVec 1) (w : Bool) (s : State) : Res := subframeHeader false (0b00001#5 ++ x) w s

/-- `SFH.RSVD_0001xx` (R239). -/
def execSfhRsvd0001xx (x : BitVec 2) (w : Bool) (s : State) : Res := subframeHeader false (0b0001#4 ++ x) w s

/-- `SFH.FIXED` (R241). -/
def execSfhFixed (o : BitVec 3) (w : Bool) (s : State) : Res := subframeHeader false (0b001#3 ++ o) w s

/-- `SFH.RSVD_01xxxx` (R240). -/
def execSfhRsvd01xxxx (x : BitVec 4) (w : Bool) (s : State) : Res := subframeHeader false (0b01#2 ++ x) w s

/-- `SFH.LPC` (R241). -/
def execSfhLpc (o : BitVec 5) (w : Bool) (s : State) : Res := subframeHeader false (0b1#1 ++ o) w s

/-- `SFH.RSVD_Z` (R237). -/
def execSfhRsvdZ (t : BitVec 6) (w : Bool) (s : State) : Res := subframeHeader true t w s

/-- `WASTED` (R243): the count is the length of the code. -/
def execWasted (k : Nat) (s : State) : Res :=
  withSubframe s fun f =>
  let u := s.off
  readUnary0 k s fun s => beginSamples u (s.setSubframe { f with wastedBitCount := k })

/-- `SAMPLE` (R246): one more sample of the current subframe; after `FH.blockSize` of them the subframe
ends. -/
def execSample (width : Nat) (field : BitVec 36) (s : State) : Res :=
  withSubframe s fun f =>
  readBits width s fun s =>
  let samples := f.samples ++ [sext width field.toNat]
  let s := s.setSubframe { f with samples := samples }
  if samples.length < s.fh.blockSize.toNat then .next (s.goto .sample) else nextChannel s

end Sys2Proof.Machine
end

