-- ==== Sys2Proof/Machine/Dispatch.lean ====
section
/-! DEFINITION. One arm per instruction: the meaning that runs it. -/

namespace Sys2Proof.Machine

def exec (i : Instr) (s : State) : Host.Outcome State Fault Refusal :=
  match i with
  | .sig word => Sys2Proof.Machine.execSig word s
  | .mbhSi isLast length => Sys2Proof.Machine.execMbhSi isLast length s
  | .mbhOther isLast blockType length => Sys2Proof.Machine.execMbhOther isLast blockType length s
  | .siBody minBlockSize maxBlockSize minFrameSize maxFrameSize sampleRateHz channelCountMinus1 bitsPerSampleMinus1 totalSamples contentHash => Sys2Proof.Machine.execSiBody minBlockSize maxBlockSize minFrameSize maxFrameSize sampleRateHz channelCountMinus1 bitsPerSampleMinus1 totalSamples contentHash s
  | .mbBody => Sys2Proof.Machine.execMbBody s
  | .fhWord sync z1 b bsc src cac ssc z2 => Sys2Proof.Machine.execFhWord sync z1 b bsc src cac ssc z2 s
  | .bs0000 => Sys2Proof.Machine.execBs0000 s
  | .bs0001 => Sys2Proof.Machine.execBs0001 s
  | .bs0010 => Sys2Proof.Machine.execBs0010 s
  | .bs0011 => Sys2Proof.Machine.execBs0011 s
  | .bs0100 => Sys2Proof.Machine.execBs0100 s
  | .bs0101 => Sys2Proof.Machine.execBs0101 s
  | .bs0110 => Sys2Proof.Machine.execBs0110 s
  | .bs0111 => Sys2Proof.Machine.execBs0111 s
  | .bs1000 => Sys2Proof.Machine.execBs1000 s
  | .bs1001 => Sys2Proof.Machine.execBs1001 s
  | .bs1010 => Sys2Proof.Machine.execBs1010 s
  | .bs1011 => Sys2Proof.Machine.execBs1011 s
  | .bs1100 => Sys2Proof.Machine.execBs1100 s
  | .bs1101 => Sys2Proof.Machine.execBs1101 s
  | .bs1110 => Sys2Proof.Machine.execBs1110 s
  | .bs1111 => Sys2Proof.Machine.execBs1111 s
  | .sr0000 => Sys2Proof.Machine.execSr0000 s
  | .sr0001 => Sys2Proof.Machine.execSr0001 s
  | .sr0010 => Sys2Proof.Machine.execSr0010 s
  | .sr0011 => Sys2Proof.Machine.execSr0011 s
  | .sr0100 => Sys2Proof.Machine.execSr0100 s
  | .sr0101 => Sys2Proof.Machine.execSr0101 s
  | .sr0110 => Sys2Proof.Machine.execSr0110 s
  | .sr0111 => Sys2Proof.Machine.execSr0111 s
  | .sr1000 => Sys2Proof.Machine.execSr1000 s
  | .sr1001 => Sys2Proof.Machine.execSr1001 s
  | .sr1010 => Sys2Proof.Machine.execSr1010 s
  | .sr1011 => Sys2Proof.Machine.execSr1011 s
  | .sr1100 => Sys2Proof.Machine.execSr1100 s
  | .sr1101 => Sys2Proof.Machine.execSr1101 s
  | .sr1110 => Sys2Proof.Machine.execSr1110 s
  | .sr1111 => Sys2Proof.Machine.execSr1111 s
  | .ca0000 => Sys2Proof.Machine.execCa0000 s
  | .ca0001 => Sys2Proof.Machine.execCa0001 s
  | .ca0010 => Sys2Proof.Machine.execCa0010 s
  | .ca0011 => Sys2Proof.Machine.execCa0011 s
  | .ca0100 => Sys2Proof.Machine.execCa0100 s
  | .ca0101 => Sys2Proof.Machine.execCa0101 s
  | .ca0110 => Sys2Proof.Machine.execCa0110 s
  | .ca0111 => Sys2Proof.Machine.execCa0111 s
  | .ca1000 => Sys2Proof.Machine.execCa1000 s
  | .ca1001 => Sys2Proof.Machine.execCa1001 s
  | .ca1010 => Sys2Proof.Machine.execCa1010 s
  | .ca1011 => Sys2Proof.Machine.execCa1011 s
  | .ca1100 => Sys2Proof.Machine.execCa1100 s
  | .ca1101 => Sys2Proof.Machine.execCa1101 s
  | .ca1110 => Sys2Proof.Machine.execCa1110 s
  | .ca1111 => Sys2Proof.Machine.execCa1111 s
  | .ss000 => Sys2Proof.Machine.execSs000 s
  | .ss001 => Sys2Proof.Machine.execSs001 s
  | .ss010 => Sys2Proof.Machine.execSs010 s
  | .ss011 => Sys2Proof.Machine.execSs011 s
  | .ss100 => Sys2Proof.Machine.execSs100 s
  | .ss101 => Sys2Proof.Machine.execSs101 s
  | .ss110 => Sys2Proof.Machine.execSs110 s
  | .ss111 => Sys2Proof.Machine.execSs111 s
  | .idx1 v => Sys2Proof.Machine.execIdx1 v s
  | .idx2 v => Sys2Proof.Machine.execIdx2 v s
  | .idx3 v => Sys2Proof.Machine.execIdx3 v s
  | .idx4 v => Sys2Proof.Machine.execIdx4 v s
  | .idx5 v => Sys2Proof.Machine.execIdx5 v s
  | .idx6 v => Sys2Proof.Machine.execIdx6 v s
  | .idx7 => Sys2Proof.Machine.execIdx7 s
  | .idxBad10 x => Sys2Proof.Machine.execIdxBad10 x s
  | .idxBadFF => Sys2Proof.Machine.execIdxBadFF s
  | .idxCont top data => Sys2Proof.Machine.execIdxCont top data s
  | .xbs8 v => Sys2Proof.Machine.execXbs8 v s
  | .xbs16 v => Sys2Proof.Machine.execXbs16 v s
  | .xsr8k v => Sys2Proof.Machine.execXsr8k v s
  | .xsr16 v => Sys2Proof.Machine.execXsr16 v s
  | .xsr16t v => Sys2Proof.Machine.execXsr16t v s
  | .crc8 headerCrc8 => Sys2Proof.Machine.execCrc8 headerCrc8 s
  | .sfhConstant w => Sys2Proof.Machine.execSfhConstant w s
  | .sfhVerbatim w => Sys2Proof.Machine.execSfhVerbatim w s
  | .sfhRsvd00001x x w => Sys2Proof.Machine.execSfhRsvd00001x x w s
  | .sfhRsvd0001xx x w => Sys2Proof.Machine.execSfhRsvd0001xx x w s
  | .sfhFixed o w => Sys2Proof.Machine.execSfhFixed o w s
  | .sfhRsvd01xxxx x w => Sys2Proof.Machine.execSfhRsvd01xxxx x w s
  | .sfhLpc o w => Sys2Proof.Machine.execSfhLpc o w s
  | .sfhRsvdZ t w => Sys2Proof.Machine.execSfhRsvdZ t w s
  | .wasted k => Sys2Proof.Machine.execWasted k s
  | .sample width field => Sys2Proof.Machine.execSample width field s
  | .pad bits => Sys2Proof.Machine.execPad bits s
  | .crc16 footerCrc16 => Sys2Proof.Machine.execCrc16 footerCrc16 s

end Sys2Proof.Machine
end

