-- ==== Sys2Proof/Machine/Fetch.lean ====
section
/-! DEFINITION. Fetching the next element. The framer never searches: PHASE and the registers already written
say which element is next and how long it is (30 R85). The element's bits are taken from the cursor on; the
code fields of `FH.WORD`, already consumed, from the registers that hold them. Past the end of the input the
decoder is given 0-bits (for a unary code, a 1-bit): the meaning's own reads raise `OutOfData` before it
looks at one (40 R101, log 6). -/

namespace Sys2Proof.Machine

/-- The length of an element whose length State fixes: `SF[CH].width` for `SAMPLE`, the bits to the byte
boundary for `PAD` (30 R85). -/
def State.elemWidth (s : State) : Nat :=
  match s.elem with
  | .sample => (s.sf[s.ch.toNat]?.map fun f => f.width.toNat).getD 0
  | .pad => (8 - s.cur % 8) % 8
  | _ => 0

/-- The bits the next element is decoded from. -/
def State.window (s : State) : Bits :=
  match s.elem with
  | .bsCode => putField s.fh.blockSizeCode
  | .srCode => putField s.fh.sampleRateCode
  | .caCode => putField s.fh.channelAssignmentCode
  | .ssCode => putField s.fh.sampleSizeCode
  | .wasted => s.streamBits s.rem ++ [true]
  | e => s.streamBits (e.bits s.elemWidth)

/-- The next element; none when no element is under way (`Elem.rest`). -/
def fetch (s : State) : Option Instr :=
  match decode s.params s.elem s.elemWidth s.window with
  | .ok (i, _) => some i
  | .error _ => none

/-- The phase an element belongs to (10 R22); at rest any phase may stand. -/
def Elem.phase (e : Elem) (rest : Phase) : Phase :=
  match e with
  | .rest => rest
  | .sig => .sig
  | .mbh | .siBody | .mbBody => .mbh
  | _ => .frame

/-- The byte length of the longest element of fixed length, `SI.BODY` (30 R70). -/
def longestElement : Nat := 34

/-- An element's stream bytes, filled with 0 to the longest element, at the next byte boundary, with the cursor
on them and the input reaching to their end. -/
def State.placeBytes (s : State) (bytes : List Byte) : State :=
  let a := (s.cur + 7) / 8
  { s with
    cur := 8 * a
    mem := Memory.writeBytes s.mem a (bytes ++ List.replicate (longestElement - bytes.length) 0)
    len := max s.len (a + longestElement) }

/-- The state in which the next step runs the instruction of an opcode-table word: the element expected, the
phase it belongs to, no host action before it, and the word in the input, or its code in the register the
code is fetched from (log 15, log 16). -/
def State.placeTableWord (s : State) (nbits w : Nat) : State :=
  let e := tableElem nbits w
  let t := { s with host := [], elem := e, phase := Elem.phase e s.phase }
  match e with
  | .rest => s
  | .bsCode => { t with fh := { t.fh with blockSizeCode := BitVec.ofNat 4 (slice w 12 4) } }
  | .srCode => { t with fh := { t.fh with sampleRateCode := BitVec.ofNat 4 (slice w 8 4) } }
  | .caCode => { t with fh := { t.fh with channelAssignmentCode := BitVec.ofNat 4 (slice w 4 4) } }
  | .ssCode => { t with fh := { t.fh with sampleSizeCode := BitVec.ofNat 3 (slice w 1 3) } }
  | _ => t.placeBytes (tableBytes nbits w)

end Sys2Proof.Machine
end

