-- ==== Sys2Proof/Machine/HostCommands.lean ====
section
/-! DEFINITION. The host's moves between steps (48 R270 to R279, 70 R340). The host's coming actions are a
list in State (log 2); one is taken at a boundary of the steps of 48 R270 only, never inside a step. Rule
numbers without a file are those of spec/48. -/

namespace Sys2Proof.Machine

/-- The framer stands between two steps of R270: at rest, or before the signature or a block header. -/
def State.atBoundary (s : State) : Bool :=
  match s.elem with
  | .rest | .sig | .mbh => true
  | _ => false

/-- The host's next action, where one may be taken. -/
def State.pendingAction (s : State) : Option HostAction := if s.atBoundary then s.host.head? else none

/-- The host's next action is taken off its list. -/
def State.popHost (s : State) : State := { s with host := s.host.tail }

/-- `START` (R271), accepted in `P_IDLE` only (R277, log 9). -/
def State.toStart (s : State) : State :=
  if s.phase = .idle then { s with cur := 0, policy := s.lenient, phase := .sig, elem := .sig } else s

/-- `NEXT` (R275), accepted in `P_FRAME` only (R277, log 9): the clean end of the stream when no byte is left,
else a frame header follows. -/
def State.toNext (s : State) : State :=
  if s.phase = .frame then
    (if s.cur = 8 * s.len then { s with out := s.out ++ [.endOfStream], phase := .done } else s.goto .fhWord)
  else s

/-- `IN` and `LEN` are set, in `P_IDLE` only (R279); at any other time the host breaks its duty (20 R51, log
10). -/
def setInput (bytes : List Byte) (s : State) : Res :=
  if s.phase = .idle then .next { s with mem := Memory.ofBytes 0 bytes, len := bytes.length }
  else .refused .inputChanged

/-- One action of the host. -/
def hostMove (a : HostAction) (s : State) : Res :=
  match a with
  | .reset => .next s.toReset
  | .start => .next s.toStart
  | .next => .next s.toNext
  | .setLenient b => .next { s with lenient := b }
  | .setInput bytes => setInput bytes s
  | .wait => .next s

end Sys2Proof.Machine
end

