-- ==== Sys2Proof/Machine/Step.lean ====
section
/-! DEFINITION. One step: the host's action where one is pending, else the next element of the stream
(48 R270, log 1). -/

namespace Sys2Proof.Machine

/-- Fetch the next element and run it; at rest nothing happens (48 R274, log 17). -/
def runElement (s : State) : Res :=
  match fetch s with
  | some i => exec i s
  | none => .next s

/-- One step of the machine. -/
def step (s : State) : Host.Outcome State Fault Refusal :=
  match s.pendingAction with
  | none => runElement s
  | some .wait => runElement s.popHost
  | some a => hostMove a s.popHost

/-- `s` with an opcode-table word where the very next step fetches and runs it (log 15, log 16). -/
def State.withFetchWord (s : State) (nbits w : Nat) : State := s.placeTableWord nbits w

end Sys2Proof.Machine
end

