-- ==== Sys2Proof/WellFormed.lean ====
section
/-! DEFINITION. When an instruction, as syntax, is one the decoder can read (`wellFormed`), and when its
bits match the row of spec/opcode_table.json it belongs to (`matchesRow`). An instruction that is
well-formed and does not match its row is one of the illegal encodings of 30 R88: it is decoded and its
meaning raises the failure the spec names. -/

namespace Sys2Proof

/-- The operands are ones the encoding can hold, under the parameters `p` (30 R72, R81 to R83). -/
def Instr.wellFormed (p : Params) : Instr → Bool
  | .mbhOther _ blockType _ => blockType != p.tStreamInfo
  | .wasted k => 1 ≤ k
  | .sample w field => 1 ≤ w && w ≤ Config.nMax && field.toNat < 2 ^ w
  | .pad bits => bits.length ≤ 7
  | _ => true

/-- The fixed bits of the row are as the table gives them, with the parameters `p` for its constants (30 R71, R75,
R76). -/
def Instr.matchesRow (p : Params) : Instr → Bool
  | .sig word => word == p.sig
  | .fhWord sync z1 _ _ _ _ _ z2 => sync == p.sync14 && !z1 && !z2
  | .idxCont top _ => top == 0b10
  | i => i.wellFormed p

end Sys2Proof
end

