-- ==== Sys2Proof/Safety.lean ====
section
/-! DEFINITION. The terms in which claims are stated: what a raised failure shows, the invariants of a run,
which element may raise which failure, and which element may write which registers. -/

namespace Sys2Proof.Machine

/-- What a consumer may rely on after the failure `e` at byte `off` (60 R301, R309), and that nothing was
written to the input. -/
def Raised (s t : State) (e : Failure) (off : Nat) : Prop :=
  t.phase = .err ∧ t.err = e.code ∧ t.errOff = off ∧ t.out = s.out ++ [.error e.code off] ∧
    t.siValid = s.siValid ∧ ∀ a, t.readByte? a = s.readByte? a

/-- The step answers a next state in which the failure has been raised. -/
def Raises (r : Res) (s : State) (e : Failure) (off : Nat) : Prop := ∃ t, r = .next t ∧ Raised s t e off

/-- The cursor stays inside the input (10 R21), and stands at 0 before `START`. -/
def State.CursorInside (s : State) : Prop :=
  s.cur ≤ 8 * s.len ∧ (s.phase = .idle → s.cur = 0 ∧ s.elem = .rest)

/-- The input is held in canonical form and lies below `LEN` (20 R50). -/
def State.InputCanonical (s : State) : Prop := Memory.wf s.mem = true ∧ Memory.below s.len s.mem = true

/-- The element under way is one of the phase (10 R22, 30 R85). -/
def State.PlaceAgrees (s : State) : Prop :=
  match s.elem with
  | .rest => s.phase ≠ .sig ∧ s.phase ≠ .mbh
  | .sig => s.phase = .sig
  | .mbh | .siBody | .mbBody => s.phase = .mbh
  | _ => s.phase = .frame

/-- The element belongs to the subframe of channel `CH`. -/
def Elem.inSubframe (e : Elem) : Bool :=
  match e with
  | .sfh | .wasted | .sample => true
  | _ => false

/-- A value lies in a range of naturals. -/
abbrev Within (lo n hi : Nat) : Prop := lo ≤ n ∧ n ≤ hi

/-- The literals of the code tables are values of the registers they are copied to (10 R32; the tables are
parameters, 00 R8). -/
structure ParamsLegal (p : Params) : Prop where
  bs : ∀ c n, bsTable p c = .literal n → Within 1 n.toNat 65536
  ca : ∀ c n, caTable p c = .independent n → Within 1 n.toNat 8
  ss : ∀ c n, ssTable p c = .literal n → Within 1 n.toNat 32

/-- The registers stay in the ranges that 10 R29 to R34 give them (but for `FH.sampleRateHz`, whose range the
copy of `SI.sampleRateHz` of 43 R177 may leave, log 21); and where an element of a subframe or a continuation
byte is under way, its counters are ones a frame can have. -/
structure State.InRange (s : State) : Prop where
  seenSi        : s.seenSi.toNat ≤ 2
  siChannels    : Within 1 s.si.channelCount.toNat 8
  siBits        : Within 1 s.si.bitsPerSample.toNat 32
  blockSize     : Within 1 s.fh.blockSize.toNat 65536
  channels      : Within 1 s.fh.channelCount.toNat 8
  sampleSize    : Within 1 s.fh.sampleSize.toNat 32
  indexBytes    : 1 ≤ s.fh.indexBytes.toNat
  ch            : s.ch.toNat ≤ 8
  width         : ∀ f ∈ s.sf.toList, Within 1 f.width.toNat 33
  chInFrame     : Elem.inSubframe s.elem = true → s.ch.toNat < s.fh.channelCount.toNat
  indexUnderWay : s.elem = .idxCont → 1 ≤ s.idxLeft ∧ s.idxLeft < s.idxLen.toNat
  params        : ParamsLegal s.params

/-- The subframe `c` of the frame under way has been read to its end. -/
def State.subframeRead (s : State) (c : Nat) : Prop :=
  Elem.inSubframe s.elem = true ∧ c < s.ch.toNat ∨
    (s.elem = .pad ∨ s.elem = .crc16) ∧ c < s.fh.channelCount.toNat

/-- The wasted-bit count of a frame that is emitted: at most 32, and 0 exactly when the flag is clear (10 R34). -/
def CountAgrees (flag : Bool) (count : Nat) : Prop := count ≤ 32 ∧ (flag = true ↔ 1 ≤ count)

/-- What 10 R34 says of the subframe registers and of the subframes of an emitted frame, and the codes of `ERR` (10
R25, 60 R300). `SF[c].subframeType` holds Reserved only where the step that stored it raised (46 R236). -/
structure State.SubframesInRange (s : State) : Prop where
  err       : s.err.toNat ≤ 10
  order     : ∀ f ∈ s.sf.toList, ∀ o, f.subframeType = .lpc o → Within 1 o.toNat 32
  flagClear : ∀ f ∈ s.sf.toList, f.wastedBitsPresent = false → f.wastedBitCount = 0
  values    : ∀ f ∈ s.sf.toList, ∀ x ∈ f.samples,
                -(2 ^ (f.width.toNat - 1) : Int) ≤ x ∧ x < 2 ^ (f.width.toNat - 1)
  verbatim  : s.elem = .wasted ∨ s.elem = .sample →
                ∀ f, s.sf[s.ch.toNat]? = some f → f.subframeType = .verbatim
  flagSet   : s.elem = .wasted → ∀ f, s.sf[s.ch.toNat]? = some f → f.wastedBitsPresent = true
  counting  : s.elem = .sample → ∀ f, s.sf[s.ch.toNat]? = some f →
                CountAgrees f.wastedBitsPresent f.wastedBitCount ∧ f.samples.length < s.fh.blockSize.toNat
  read      : ∀ c f, s.subframeRead c → s.sf[c]? = some f →
                f.subframeType = .verbatim ∧ CountAgrees f.wastedBitsPresent f.wastedBitCount ∧
                f.samples.length = s.fh.blockSize.toNat
  emitted   : ∀ fr, Event.frame fr ∈ s.out → ∀ g ∈ fr.subframes,
                g.subframeType = .verbatim ∧ CountAgrees g.wastedBitsPresent g.wastedBitCount ∧
                g.samples.length = fr.header.blockSize.toNat

/-- The event stands between the `StreamInfo` event and the last one (10 R40). -/
def Event.isBody (e : Event) : Bool :=
  match e with
  | .frame _ | .report .. => true
  | .streamInfo _ | .error .. | .endOfStream => false

/-- The last event of a run that is over (48 R282). -/
def State.lastEvents (s : State) : List Event :=
  match s.phase with
  | .done => [.endOfStream]
  | .err => [.error s.err s.errOff]
  | _ => []

/-- The shape of a run (48 R282): `ERR` is set in `P_ERR` only; `SI_VALID` holds from the end of the chain on
(10 R27, 48 R274), after exactly one StreamInfo block (41 R128) with a nonzero sample rate (42 R145); before the
chain `FIRST` and `SEEN_SI` are as after reset (10 R29); `OUT` is the `StreamInfo` event, then reports and frames,
then the last event; `P_DONE` is reached with no bit left. -/
structure State.RunShape (s : State) : Prop where
  errOnlyInErr : s.err = 0 ↔ s.phase ≠ .err
  validInFrame : s.phase = .frame ∨ s.phase = .done → s.siValid = true
  notValidYet  : s.phase = .idle ∨ s.phase = .sig ∨ s.phase = .mbh → s.siValid = false
  oneBlock     : s.siValid = true → s.seenSi = 1
  chainUnread  : s.phase = .idle ∨ s.phase = .sig → s.first = true ∧ s.seenSi = 0
  rateNonzero  : s.siValid = true ∨ (s.phase = .mbh ∧ s.seenSi ≠ 0) → s.si.sampleRateHz ≠ 0
  doneAtEnd    : s.phase = .done → s.cur = 8 * s.len
  output       : ∃ body : List Event, (body.all Event.isBody = true) ∧ (s.siValid = false → body = []) ∧
                   s.out = (if s.siValid then [.streamInfo s.si] else []) ++ body ++ s.lastEvents

/-- The element starts on a byte boundary whenever it is reached in a run (20 R55). A code row does so unless
its code is reserved, where the frame word stops inside a byte. -/
def State.mustAlign (s : State) : Bool :=
  match s.elem with
  | .rest => s.phase == .frame || s.phase == .idle
  | .wasted | .sample | .pad => false
  | .sfh => s.ch == 0
  | .bsCode => bsTable s.params s.fh.blockSizeCode != .reserved
  | .srCode => srTable s.params s.fh.sampleRateCode != .reserved
  | .caCode => caTable s.params s.fh.channelAssignmentCode != .reserved
  | .ssCode => ssTable s.params s.fh.sampleSizeCode != .reserved
  | _ => true

/-- The cursor is byte-aligned where 20 R55 says so. -/
def State.Aligned (s : State) : Prop := s.mustAlign = true → s.cur % 8 = 0

/-- The failures an element can raise (60 R306); the end of the chain is part of the two block bodies, and the
code rows are part of `FH.WORD`. -/
def Elem.failures (e : Elem) : List Failure :=
  match e with
  | .rest | .pad => []
  | .sig => [.outOfData, .badSignature]
  | .mbh => [.outOfData, .missingStreamInfo, .invalidStreamInfo]
  | .siBody => [.outOfData, .invalidStreamInfo, .missingStreamInfo]
  | .mbBody => [.outOfData, .missingStreamInfo]
  | .fhWord => [.outOfData, .frameSyncLost]
  | .bsCode | .srCode | .caCode | .ssCode => [.frameSyncLost]
  | .idx | .idxCont => [.outOfData, .malformedIndex]
  | .xbs8 | .xbs16 | .xsr8k | .xsr16 | .xsr16t | .sample => [.outOfData]
  | .crc8 => [.outOfData, .headerChecksumMismatch]
  | .sfh => [.outOfData, .reservedSubframeType, .unsupportedSubframeType]
  | .wasted => [.outOfData, .frameSyncLost]
  | .crc16 => [.outOfData, .frameChecksumMismatch]

/-- The element belongs to the signature or the metadata chain. -/
def Elem.isMeta (e : Elem) : Bool :=
  match e with
  | .sig | .mbh | .siBody | .mbBody => true
  | _ => false

/-- The element belongs to the frame header. -/
def Elem.isHeader (e : Elem) : Bool :=
  match e with
  | .fhWord | .bsCode | .srCode | .caCode | .ssCode | .idx | .idxCont | .xbs8 | .xbs16 | .xsr8k | .xsr16
  | .xsr16t | .crc8 => true
  | _ => false

/-- How many steps without a bit may still follow at the same cursor: the code rows follow one another, an empty
block body is followed by a header, an empty padding by the CRC-16. -/
def Elem.rank (e : Elem) : Nat :=
  match e with
  | .bsCode => 4
  | .srCode => 3
  | .caCode => 2
  | .ssCode | .mbBody | .pad => 1
  | _ => 0

/-- The data bits of an `n`-byte index, `n` from 2 to 7, in the bits `bs` of its bytes (44 R203): the low
`7 - n` bits of the first byte, the low six of every other. -/
def indexDataBits (n : Nat) (bs : Bits) : Bits :=
  (bs.take 8).drop (n + 1) ++ (List.range (n - 1)).flatMap fun i => ((bs.drop (8 * (i + 1))).take 8).drop 2

/-! ## The rows of the four code tables (30 R87) -/

/-- The block-size rows and their codes. -/
def bsCodes : List (Instr × BitVec 4) :=
  [(.bs0000, 0b0000), (.bs0001, 0b0001), (.bs0010, 0b0010), (.bs0011, 0b0011), (.bs0100, 0b0100), (.bs0101, 0b0101),
    (.bs0110, 0b0110), (.bs0111, 0b0111), (.bs1000, 0b1000), (.bs1001, 0b1001), (.bs1010, 0b1010),
    (.bs1011, 0b1011), (.bs1100, 0b1100), (.bs1101, 0b1101), (.bs1110, 0b1110), (.bs1111, 0b1111)]

/-- The sample-rate rows and their codes. -/
def srCodes : List (Instr × BitVec 4) :=
  [(.sr0000, 0b0000), (.sr0001, 0b0001), (.sr0010, 0b0010), (.sr0011, 0b0011), (.sr0100, 0b0100), (.sr0101, 0b0101),
    (.sr0110, 0b0110), (.sr0111, 0b0111), (.sr1000, 0b1000), (.sr1001, 0b1001), (.sr1010, 0b1010),
    (.sr1011, 0b1011), (.sr1100, 0b1100), (.sr1101, 0b1101), (.sr1110, 0b1110), (.sr1111, 0b1111)]

/-- The channel-assignment rows and their codes. -/
def caCodes : List (Instr × BitVec 4) :=
  [(.ca0000, 0b0000), (.ca0001, 0b0001), (.ca0010, 0b0010), (.ca0011, 0b0011), (.ca0100, 0b0100), (.ca0101, 0b0101),
    (.ca0110, 0b0110), (.ca0111, 0b0111), (.ca1000, 0b1000), (.ca1001, 0b1001), (.ca1010, 0b1010),
    (.ca1011, 0b1011), (.ca1100, 0b1100), (.ca1101, 0b1101), (.ca1110, 0b1110), (.ca1111, 0b1111)]

/-- The sample-size rows and their codes. -/
def ssCodes : List (Instr × BitVec 3) :=
  [(.ss000, 0b000), (.ss001, 0b001), (.ss010, 0b010), (.ss011, 0b011), (.ss100, 0b100), (.ss101, 0b101),
    (.ss110, 0b110), (.ss111, 0b111)]

/-- The registers without a reset value (10 R42, 70 R341) and the model's index counters, all of them replaced. -/
structure Unspecified where
  mb : MetaBlock
  si : StreamInfo
  fh : FrameHeader
  sf : Vector Subframe 8
  fr : Footer
  idxAcc  : BitVec 36
  idxLeft : Nat
  idxLen  : BitVec 3

/-- A state with other contents of the registers that have no reset value. -/
def State.withUnspecified (s : State) (u : Unspecified) : State :=
  { s with mb := u.mb, si := u.si, fh := u.fh, sf := u.sf, fr := u.fr, idxAcc := u.idxAcc,
           idxLeft := u.idxLeft, idxLen := u.idxLen }

end Sys2Proof.Machine
end

