-- ==== Sys2Proof/Certificates/Slice0/Obligations.lean ====
section
/-! DEFINITION. The statements for the provers, in five parts: encodings and fetching; the BitReader and the
failures; the elements, in stream order; the checksum generators and the host; the whole machine. A result is
stated as the next state itself (`= .next { s with … }`), which is its completion and its frame at once: what is
not named is unchanged. A failure is stated by `Raises`, which says only what 60 R309 lets a consumer rely on. The
constants and tables are the parameters of the state (00 R8, log 22), whatever they hold; where a statement names a
default value, it says so. -/

open Sys2Proof Sys2Proof.Machine

/-! ## Encodings and fetching -/

/-- 30 R71 to R84: decoding what a well-formed instruction encodes to gives it back, with whatever follows it. -/
def Obligations.DecodeEncodeRoundTrip : Prop :=
  ∀ (p : Params) (i : Instr) (rest : Bits), i.wellFormed p = true →
    decode p i.elem i.width (encode p i ++ rest) = .ok (i, rest)

/-- 30 R71 to R85: whatever the decoder answers is well-formed, of the kind asked for, and encodes to the very
bits it was read from. -/
def Obligations.DecodedBitsEncodeBack : Prop :=
  ∀ (p : Params) (e : Elem) (w : Nat) (bs : Bits) (i : Instr) (rest : Bits),
    (e = .sample → 1 ≤ w ∧ w ≤ 36) → (e = .pad → w ≤ 7) → decode p e w bs = .ok (i, rest) →
    i.elem = e ∧ i.wellFormed p = true ∧ encode p i ++ rest = bs ∧ (e = .sample ∨ e = .pad → i.width = w)

/-- Words written out from the formats of 30 R71 to R84 and the examples of the element rules decode to the
elements they stand for under the default parameters (signature, sync pattern, block type and index patterns are
PRESUMED, log 8). -/
def Obligations.SpecWordsDecode : Prop :=
  let p := defaultParams
  ∀ rest : Bits,
    decode p .sig 0 (bytesBits [0x66, 0x4C, 0x61, 0x43] ++ rest) = .ok (.sig 0x664C6143, rest) ∧
    decode p .mbh 0 (bytesBits [0x80, 0x00, 0x00, 0x22] ++ rest) = .ok (.mbhSi true 34, rest) ∧
    decode p .mbh 0 (bytesBits [0x04, 0x00, 0x00, 0x05] ++ rest) = .ok (.mbhOther false 4 5, rest) ∧
    decode p .fhWord 0 (bytesBits [0xFF, 0xF8, 0x60, 0x10] ++ rest)
      = .ok (.fhWord 0x3FFE false false 0b0110 0b0000 0b0001 0b000 false, rest) ∧
    decode p .bsCode 0 ([false, true, true, false] ++ rest) = .ok (.bs0110, rest) ∧
    decode p .srCode 0 ([true, false, false, true] ++ rest) = .ok (.sr1001, rest) ∧
    decode p .caCode 0 ([false, false, false, true] ++ rest) = .ok (.ca0001, rest) ∧
    decode p .ssCode 0 ([true, false, false] ++ rest) = .ok (.ss100, rest) ∧
    decode p .idx 0 (bytesBits [0x7F] ++ rest) = .ok (.idx1 0x7F, rest) ∧
    decode p .idx 0 (bytesBits [0xC2] ++ rest) = .ok (.idx2 2, rest) ∧
    decode p .idx 0 (bytesBits [0xFE] ++ rest) = .ok (.idx7, rest) ∧
    decode p .idx 0 (bytesBits [0x80] ++ rest) = .ok (.idxBad10 0, rest) ∧
    decode p .idx 0 (bytesBits [0xFF] ++ rest) = .ok (.idxBadFF, rest) ∧
    decode p .idxCont 0 (bytesBits [0x80] ++ rest) = .ok (.idxCont 0b10 0, rest) ∧
    decode p .xbs16 0 (bytesBits [0x00, 0x02] ++ rest) = .ok (.xbs16 2, rest) ∧
    decode p .xsr16 0 (bytesBits [0xAC, 0x44] ++ rest) = .ok (.xsr16 44100, rest) ∧
    decode p .crc8 0 (bytesBits [0x48] ++ rest) = .ok (.crc8 0x48, rest) ∧
    decode p .sfh 0 (bytesBits [0x03] ++ rest) = .ok (.sfhVerbatim true, rest) ∧
    decode p .sfh 0 (bytesBits [0x1E] ++ rest) = .ok (.sfhFixed 7 false, rest) ∧
    decode p .sfh 0 (bytesBits [0x7E] ++ rest) = .ok (.sfhLpc 31 false, rest) ∧
    decode p .sfh 0 (bytesBits [0x3E] ++ rest) = .ok (.sfhRsvd01xxxx 15 false, rest) ∧
    decode p .wasted 0 ([false, true] ++ rest) = .ok (.wasted 2, rest) ∧
    decode p .sample 14 (putBits 14 0x18FD ++ rest) = .ok (.sample 14 0x18FD, rest) ∧
    decode p .crc16 0 (bytesBits [0x76, 0xBB] ++ rest) = .ok (.crc16 0x76BB, rest)

/-- 48 R270, R273 (the step of one element is the model's, log 1; the host's list and `wait` too, log 2; at rest
without a host action the state stays, log 17): a step at which no host action is taken runs the instruction that
the element's bits decode to; a host action at a boundary is taken instead, `wait` excepted. -/
def Obligations.StepRunsFetchedInstruction : Prop :=
  (∀ (s : State) (i : Instr) (rest : Bits), decode s.params s.elem s.elemWidth s.window = .ok (i, rest) →
    (s.pendingAction = none → step s = exec i s) ∧
    (s.pendingAction = some .wait → step s = exec i s.popHost)) ∧
  (∀ s : State, s.elem = .rest → s.pendingAction = none → step s = .next s) ∧
  (∀ (s : State) (a : HostAction), s.pendingAction = some a → a ≠ .wait → step s = hostMove a s.popHost)

/-- 20 R58, 40 R101, R105 (that the decoder is given such bits at all is the model's, log 6): whatever bits are put
past the end of the input, the instruction fetched acts as the one decoded with them. (The four code fields are taken
from their registers and not from the input.) -/
def Obligations.BitsPastTheEndNeverUsed : Prop :=
  ∀ (s : State) (pad : Bits) (i : Instr) (rest : Bits),
    s.elem ≠ .bsCode → s.elem ≠ .srCode → s.elem ≠ .caCode → s.elem ≠ .ssCode →
    decode s.params s.elem s.elemWidth (s.streamBits s.rem ++ pad) = .ok (i, rest) →
    ∃ j, fetch s = some j ∧ exec j s = exec i s

/-- 00 R9: stream bit `k` is bit `7 - k mod 8` of byte `k div 8`, and a field's value is the sum of its bits,
the first the most significant; so a field of two or three whole bytes is big-endian (20 R53). -/
def Obligations.FieldsAreBigEndian : Prop :=
  ∀ s : State,
    (∀ k : Nat, s.bitAt k = (s.readByte (k / 8)).getLsbD (7 - k % 8)) ∧
    (∀ n : Nat, (getField n (s.streamBits n)).1.toNat =
      ((List.range n).map fun i => (s.bitAt (s.cur + i)).toNat * 2 ^ (n - 1 - i)).sum) ∧
    (s.cur % 8 = 0 → (getField 16 (s.streamBits 16)).1.toNat =
      (s.readByte (s.cur / 8)).toNat * 256 + (s.readByte (s.cur / 8 + 1)).toNat) ∧
    (s.cur % 8 = 0 → (getField 24 (s.streamBits 24)).1.toNat =
      (s.readByte (s.cur / 8)).toNat * 65536 + (s.readByte (s.cur / 8 + 1)).toNat * 256 +
        (s.readByte (s.cur / 8 + 2)).toNat)

/-- The register that holds a code selects the code's row (30 R85, R87): what is fetched encodes to that code. -/
def Obligations.CodeRegisterSelectsRow : Prop :=
  ∀ s : State,
    (s.elem = .bsCode →
      ∃ i, fetch s = some i ∧ i.elem = .bsCode ∧ encode s.params i = putField s.fh.blockSizeCode) ∧
    (s.elem = .srCode →
      ∃ i, fetch s = some i ∧ i.elem = .srCode ∧ encode s.params i = putField s.fh.sampleRateCode) ∧
    (s.elem = .caCode →
      ∃ i, fetch s = some i ∧ i.elem = .caCode ∧ encode s.params i = putField s.fh.channelAssignmentCode) ∧
    (s.elem = .ssCode →
      ∃ i, fetch s = some i ∧ i.elem = .ssCode ∧ encode s.params i = putField s.fh.sampleSizeCode)

/-! ## The BitReader and the failures -/

/-- 40 R100 to R105, R107: each operation moves the cursor by the bits it passes and changes nothing else, or,
when fewer remain, raises `OutOfData` at the cursor's byte with the cursor unmoved; a width that no rule calls
for is refused (log 12); aligning goes to the next byte boundary, never past the end. -/
def Obligations.BitReaderContracts : Prop :=
  ∀ (s : State) (k : State → Res),
    s.rem = 8 * s.len - s.cur ∧
    (∀ n, 1 ≤ n → n ≤ 36 → n ≤ s.rem → readBits n s k = k { s with cur := s.cur + n }) ∧
    (∀ n, 1 ≤ n → n ≤ 36 → s.rem < n → readBits n s k = .next (s.raise .outOfData (s.cur / 8))) ∧
    (∀ n, n = 0 ∨ 36 < n → readBits n s k = .refused (.readBitsWidth n)) ∧
    (∀ n, n ≤ s.rem → readUnary0 n s k = k { s with cur := s.cur + n }) ∧
    (∀ n, s.rem < n → readUnary0 n s k = .next (s.raise .outOfData (s.cur / 8))) ∧
    (∀ n, 8 * n ≤ s.rem → skipBytes n s k = k { s with cur := s.cur + 8 * n }) ∧
    (∀ n, s.rem < 8 * n → skipBytes n s k = .next (s.raise .outOfData (s.cur / 8))) ∧
    s.alignToByte = { s with cur := s.alignToByte.cur } ∧
    s.cur ≤ s.alignToByte.cur ∧ s.alignToByte.cur < s.cur + 8 ∧ s.alignToByte.cur % 8 = 0 ∧
    (s.cur ≤ 8 * s.len → s.alignToByte.cur ≤ 8 * s.len)

/-- 40 R102, 46 R243: the unary code fetched is as long as the run of 0-bits at the cursor and its terminating
1-bit; a run that reaches the end of the input counts as longer than what remains (log 6). -/
def Obligations.UnaryCodeIsCounted : Prop :=
  ∀ s : State, s.elem = .wasted →
    (∀ k, k < s.rem → (∀ i, i < k → s.bitAt (s.cur + i) = false) → s.bitAt (s.cur + k) = true →
      fetch s = some (.wasted (k + 1))) ∧
    ((∀ i, i < s.rem → s.bitAt (s.cur + i) = false) → fetch s = some (.wasted (s.rem + 1)))

/-- 60 R300, R301: the ten codes, and what a raised failure writes: `ERR`, `ERR_OFF`, one `Error` event, `P_ERR`,
and nothing else (the element under way is the model's own field, log 1). -/
def Obligations.RaiseRecordsFailure : Prop :=
  (∀ (s : State) (e : Failure) (off : Nat),
    s.raise e off =
      { s with err := e.code, errOff := off, out := s.out ++ [.error e.code off], phase := .err, elem := .rest }) ∧
  ([Failure.badSignature, .missingStreamInfo, .invalidStreamInfo, .frameSyncLost, .malformedIndex,
    .headerChecksumMismatch, .frameChecksumMismatch, .reservedSubframeType, .unsupportedSubframeType,
    .outOfData].map Failure.code = [1, 2, 3, 4, 5, 6, 7, 8, 9, 10]) ∧
  (∀ e : Failure, e.code ≠ 0) ∧ (∀ e f : Failure, e.code = f.code → e = f)

/-! ## The metadata chain -/

/-- 41 R120: the signature is accepted when all 32 bits agree with the parameter `SIG`, refused when they do not,
`OutOfData` when they are not all there. -/
def Obligations.SignatureElement : Prop :=
  ∀ (word : BitVec 32) (s : State),
    (32 ≤ s.rem → word = s.params.sig →
      exec (.sig word) s = .next { s with cur := s.cur + 32, phase := .mbh, elem := .mbh }) ∧
    (32 ≤ s.rem → word ≠ s.params.sig → Raises (exec (.sig word) s) s .badSignature (s.cur / 8)) ∧
    (s.rem < 32 → Raises (exec (.sig word) s) s .outOfData (s.cur / 8))

/-- 41 R122: a block header that no other rule refuses is read into `MB.*`, 32 bits on; a read that does not fit
raises `OutOfData` at the byte where it starts. -/
def Obligations.BlockHeaderRegisters : Prop :=
  ∀ (l : Bool) (t : BitVec 7) (n : BitVec 24) (s : State), s.cur % 8 = 0 →
    (32 ≤ s.rem → t ≠ s.params.tStreamInfo → s.first = false →
      exec (.mbhOther l t n) s = .next { s with
        cur := s.cur + 32, mb := { isLast := l, blockType := t, length := n }, elem := .mbBody }) ∧
    (32 ≤ s.rem → n = 34 →
      exec (.mbhSi l n) s = .next { s with
        cur := s.cur + 32, mb := { isLast := l, blockType := s.params.tStreamInfo, length := n }, first := false,
        elem := .siBody }) ∧
    (s.rem < 8 → Raises (exec (.mbhOther l t n) s) s .outOfData (s.cur / 8) ∧
      Raises (exec (.mbhSi l n) s) s .outOfData (s.cur / 8)) ∧
    (8 ≤ s.rem → s.rem < 32 → Raises (exec (.mbhSi l n) s) s .outOfData (s.cur / 8 + 1) ∧
      (s.first = false → Raises (exec (.mbhOther l t n) s) s .outOfData (s.cur / 8 + 1)))

/-- 41 R123, R124 (the moments of the two checks are the spec's decisions D11, D12): a first block of another type
raises `MissingStreamInfo` at its header before its length is read; a StreamInfo block of a length other than 34
raises `InvalidStreamInfo` at the length field. -/
def Obligations.BlockHeaderRefusals : Prop :=
  ∀ (l : Bool) (t : BitVec 7) (n : BitVec 24) (s : State),
    (8 ≤ s.rem → t ≠ s.params.tStreamInfo → s.first = true →
      Raises (exec (.mbhOther l t n) s) s .missingStreamInfo (s.cur / 8)) ∧
    (32 ≤ s.rem → n ≠ 34 → Raises (exec (.mbhSi l n) s) s .invalidStreamInfo (s.cur / 8 + 1))

/-- 42 R140 to R149, 41 R125, R127, R128 (saturation and the end of the chain: the spec's decisions D12, D14): a
StreamInfo body with a nonzero sample rate writes the nine registers, the two counts plus 1, and counts the block;
then the next header follows, or the chain ends: with the `StreamInfo` event after exactly one such block, else
with `MissingStreamInfo`. -/
def Obligations.StreamInfoBodyDecoded : Prop :=
  ∀ (minBlock maxBlock : BitVec 16) (minFrame maxFrame : BitVec 24) (rate : BitVec 20) (channels : BitVec 3)
    (depth : BitVec 5) (total : BitVec 36) (hash : BitVec 128) (s : State), 272 ≤ s.rem → rate ≠ 0 →
    ∃ si : StreamInfo,
      si.minBlockSize = minBlock ∧ si.maxBlockSize = maxBlock ∧ si.minFrameSize = minFrame ∧
      si.maxFrameSize = maxFrame ∧ si.sampleRateHz = rate ∧ si.channelCount.toNat = channels.toNat + 1 ∧
      si.bitsPerSample.toNat = depth.toNat + 1 ∧ si.totalSamples = total ∧ si.contentHash = hash ∧
      (s.mb.isLast = false → s.seenSi = 0 →
        exec (.siBody minBlock maxBlock minFrame maxFrame rate channels depth total hash) s =
          .next { s with cur := s.cur + 272, si := si, seenSi := 1, elem := .mbh }) ∧
      (s.mb.isLast = false → s.seenSi ≠ 0 →
        exec (.siBody minBlock maxBlock minFrame maxFrame rate channels depth total hash) s =
          .next { s with cur := s.cur + 272, si := si, seenSi := 2, elem := .mbh }) ∧
      (s.mb.isLast = true → s.seenSi = 0 →
        exec (.siBody minBlock maxBlock minFrame maxFrame rate channels depth total hash) s =
          .next { s with
            cur := s.cur + 272, si := si, seenSi := 1, siValid := true, out := s.out ++ [.streamInfo si],
            phase := .frame, elem := .rest }) ∧
      (s.mb.isLast = true → s.seenSi ≠ 0 →
        Raises (exec (.siBody minBlock maxBlock minFrame maxFrame rate channels depth total hash) s) s
          .missingStreamInfo ((s.cur + 272) / 8))

/-- 42 R140 to R149, 60 R303: a StreamInfo body fails at the first field that does not fit, at the byte where
that field starts; a zero sample rate fails as soon as it is read (decision D13), before anything after it. -/
def Obligations.StreamInfoBodyFailures : Prop :=
  ∀ (minBlock maxBlock : BitVec 16) (minFrame maxFrame : BitVec 24) (rate : BitVec 20) (channels : BitVec 3)
    (depth : BitVec 5) (total : BitVec 36) (hash : BitVec 128) (s : State), s.cur % 8 = 0 →
    let r := exec (.siBody minBlock maxBlock minFrame maxFrame rate channels depth total hash) s
    let b := s.cur / 8
    (s.rem < 16 → Raises r s .outOfData b) ∧
    (16 ≤ s.rem → s.rem < 32 → Raises r s .outOfData (b + 2)) ∧
    (32 ≤ s.rem → s.rem < 56 → Raises r s .outOfData (b + 4)) ∧
    (56 ≤ s.rem → s.rem < 80 → Raises r s .outOfData (b + 7)) ∧
    (80 ≤ s.rem → s.rem < 100 → Raises r s .outOfData (b + 10)) ∧
    (100 ≤ s.rem → rate = 0 → Raises r s .invalidStreamInfo (b + 10)) ∧
    (100 ≤ s.rem → s.rem < 108 → rate ≠ 0 → Raises r s .outOfData (b + 12)) ∧
    (108 ≤ s.rem → s.rem < 144 → rate ≠ 0 → Raises r s .outOfData (b + 13)) ∧
    (∀ i, i < 16 → 144 + 8 * i ≤ s.rem → s.rem < 152 + 8 * i → rate ≠ 0 → Raises r s .outOfData (b + 18 + i))

/-- 41 R126 to R128, 40 R104 (a body that does not fit fails at its first byte: decision D6; the end of the chain:
D12, D14): the body of any other block is passed over; then the next header follows, or the chain ends, with the
`StreamInfo` event when exactly one StreamInfo block was decoded, else with `MissingStreamInfo`. -/
def Obligations.SkippedBodyAndChainEnd : Prop :=
  ∀ s : State,
    (8 * s.mb.length.toNat ≤ s.rem → s.mb.isLast = false →
      exec .mbBody s = .next { s with cur := s.cur + 8 * s.mb.length.toNat, elem := .mbh }) ∧
    (8 * s.mb.length.toNat ≤ s.rem → s.mb.isLast = true → s.seenSi = 1 →
      exec .mbBody s = .next { s with
        cur := s.cur + 8 * s.mb.length.toNat, siValid := true, out := s.out ++ [.streamInfo s.si],
        phase := .frame, elem := .rest }) ∧
    (8 * s.mb.length.toNat ≤ s.rem → s.mb.isLast = true → s.seenSi ≠ 1 →
      Raises (exec .mbBody s) s .missingStreamInfo (s.cur / 8 + s.mb.length.toNat)) ∧
    (s.rem < 8 * s.mb.length.toNat → Raises (exec .mbBody s) s .outOfData (s.cur / 8))

/-! ## The frame header -/

/-- 43 R160 to R168 (the polarity of the blocking bit is PRESUMED, log 8): a fixed word whose sync
agrees, whose zero bits are 0 and whose codes are none of the reserved ones writes `FH.start` and the five field
registers; the index follows. -/
def Obligations.FrameWordAccepted : Prop :=
  ∀ (b : Bool) (bsc src cac : BitVec 4) (ssc : BitVec 3) (s : State), 32 ≤ s.rem →
    bsTable s.params bsc ≠ .reserved → srTable s.params src ≠ .reserved →
    caTable s.params cac ≠ .reserved → ssTable s.params ssc ≠ .reserved →
    exec (.fhWord s.params.sync14 false b bsc src cac ssc false) s = .next { s with
      cur := s.cur + 32
      fh := { s.fh with
        start := s.cur / 8, blockingStrategyFixed := !b, blockSizeCode := bsc, sampleRateCode := src,
        channelAssignmentCode := cac, sampleSizeCode := ssc }
      elem := .idx }

/-- 43 R161, R162, R168, 60 R303 (the failures of the zero bits are decision D16): a wrong sync pattern raises
`FrameSyncLost` at the frame's first byte whatever follows it, a set zero bit at its own byte; and a word that is
cut short raises `OutOfData` at the byte where the first field that does not fit starts. -/
def Obligations.FrameWordSyncLost : Prop :=
  ∀ (sync : BitVec 14) (z1 b : Bool) (bsc src cac : BitVec 4) (ssc : BitVec 3) (z2 : Bool) (s : State),
    let r := exec (.fhWord sync z1 b bsc src cac ssc z2) s
    (14 ≤ s.rem → sync ≠ s.params.sync14 → Raises r s .frameSyncLost (s.cur / 8)) ∧
    (15 ≤ s.rem → sync = s.params.sync14 → z1 = true → Raises r s .frameSyncLost (s.cur / 8 + 1)) ∧
    (32 ≤ s.rem → sync = s.params.sync14 → z1 = false → bsTable s.params bsc ≠ .reserved →
      srTable s.params src ≠ .reserved → caTable s.params cac ≠ .reserved → ssTable s.params ssc ≠ .reserved →
      z2 = true → Raises r s .frameSyncLost (s.cur / 8 + 3)) ∧
    (s.rem < 14 → Raises r s .outOfData (s.cur / 8)) ∧
    (s.cur % 8 = 0 → s.rem = 16 → sync = s.params.sync14 → z1 = false → Raises r s .outOfData (s.cur / 8 + 2)) ∧
    (s.cur % 8 = 0 → s.rem = 24 → sync = s.params.sync14 → z1 = false → bsTable s.params bsc ≠ .reserved →
      srTable s.params src ≠ .reserved → Raises r s .outOfData (s.cur / 8 + 3))

/-- 43 R174, R188, R189, R191 (decision D17; that the row of a reserved code is a step of its own is the model's, log
20): the row of a code that its table reserves raises `FrameSyncLost` at the code's byte; and a fixed word that
holds one hands over to that row before it reads any later field. The last clause is the set of codes the default
tables reserve (PRESUMED, log 8). -/
def Obligations.ReservedCodesRaiseAtOnce : Prop :=
  (∀ s : State, ∀ p ∈ bsCodes, bsTable s.params p.2 = .reserved →
    Raises (exec p.1 s) s .frameSyncLost (s.fh.start + 2)) ∧
  (∀ s : State, ∀ p ∈ srCodes, srTable s.params p.2 = .reserved →
    Raises (exec p.1 s) s .frameSyncLost (s.fh.start + 2)) ∧
  (∀ s : State, ∀ p ∈ caCodes, caTable s.params p.2 = .reserved →
    Raises (exec p.1 s) s .frameSyncLost (s.fh.start + 3)) ∧
  (∀ s : State, ∀ p ∈ ssCodes, ssTable s.params p.2 = .reserved →
    Raises (exec p.1 s) s .frameSyncLost (s.fh.start + 3)) ∧
  (∀ (b : Bool) (bsc src cac : BitVec 4) (ssc : BitVec 3) (z2 : Bool) (s : State),
    let r := exec (.fhWord s.params.sync14 false b bsc src cac ssc z2) s
    let bs := bsTable s.params bsc
    let sr := srTable s.params src
    let ca := caTable s.params cac
    (20 ≤ s.rem → bs = .reserved → ∃ t, r = .next t ∧ Raises (step t) s .frameSyncLost (s.cur / 8 + 2)) ∧
    (24 ≤ s.rem → bs ≠ .reserved → sr = .reserved →
      ∃ t, r = .next t ∧ Raises (step t) s .frameSyncLost (s.cur / 8 + 2)) ∧
    (28 ≤ s.rem → bs ≠ .reserved → sr ≠ .reserved → ca = .reserved →
      ∃ t, r = .next t ∧ Raises (step t) s .frameSyncLost (s.cur / 8 + 3)) ∧
    (31 ≤ s.rem → bs ≠ .reserved → sr ≠ .reserved → ca ≠ .reserved → ssTable s.params ssc = .reserved →
      ∃ t, r = .next t ∧ Raises (step t) s .frameSyncLost (s.cur / 8 + 3))) ∧
  (∀ c : BitVec 4,
    (bsTable defaultParams c = .reserved ↔ c = 0b0000) ∧ (srTable defaultParams c = .reserved ↔ c = 0b1111) ∧
    (caTable defaultParams c = .reserved ↔ 11 ≤ c.toNat)) ∧
  (∀ c : BitVec 3, ssTable defaultParams c = .reserved ↔ c = 0b011 ∨ c = 0b111)

/-- 43 R170, R171: a code of the literal class writes its entry of the table. The last clause is the default table
(the numbers are PRESUMED, log 8). -/
def Obligations.LiteralBlockSizes : Prop :=
  (∀ s : State, ∀ p ∈ bsCodes, ∀ n, bsTable s.params p.2 = .literal n →
    exec p.1 s = .next { s with fh := { s.fh with blockSize := n }, elem := .srCode }) ∧
  (∀ p ∈ [(0b0001#4, 192), (0b0010, 576), (0b0011, 1152), (0b0100, 2304), (0b0101, 4608), (0b1000, 256), (0b1001, 512),
      (0b1010, 1024), (0b1011, 2048), (0b1100, 4096), (0b1101, 8192), (0b1110, 16384), (0b1111, 32768)],
    bsTable defaultParams p.1 = .literal (BitVec.ofNat 17 p.2))

/-- 43 R172: a code of the read-extra-8 class, by default `0110`, is followed by an 8-bit field that holds the block
size minus 1. -/
def Obligations.BlockSizeExtra8 : Prop :=
  (∀ s : State, ∀ p ∈ bsCodes, bsTable s.params p.2 = .extra8 → exec p.1 s = .next { s with elem := .xbs8 }) ∧
  bsTable defaultParams 0b0110 = .extra8 ∧
  (∀ (v : BitVec 8) (s : State),
    (8 ≤ s.rem → ∃ size : BitVec 17, size.toNat = v.toNat + 1 ∧
      exec (.xbs8 v) s = .next { s with
        cur := s.cur + 8
        fh := { s.fh with extendedBlockSize := BitVec.ofNat 16 v.toNat, blockSize := size }
        elem := .srCode }) ∧
    (s.rem < 8 → Raises (exec (.xbs8 v) s) s .outOfData (s.cur / 8)))

/-- 43 R173, R178 (that the extreme values are accepted is decision D34; the default code numbers are PRESUMED, log
8): the 16-bit block-size field holds the size minus 1; the 8-bit rate field is in kHz. -/
def Obligations.ExtraBlockSize16AndRateInKHz : Prop :=
  (∀ s : State,
    (∀ p ∈ bsCodes, bsTable s.params p.2 = .extra16 → exec p.1 s = .next { s with elem := .xbs16 }) ∧
    (∀ p ∈ srCodes, srTable s.params p.2 = .extra8kHz → exec p.1 s = .next { s with elem := .xsr8k })) ∧
  bsTable defaultParams 0b0111 = .extra16 ∧ srTable defaultParams 0b1100 = .extra8kHz ∧
  (∀ (v : BitVec 16) (s : State),
    (16 ≤ s.rem → ∃ size : BitVec 17, size.toNat = v.toNat + 1 ∧
      exec (.xbs16 v) s = .next { s with
        cur := s.cur + 16, fh := { s.fh with extendedBlockSize := v, blockSize := size }, elem := .srCode }) ∧
    (s.rem < 16 → Raises (exec (.xbs16 v) s) s .outOfData (s.cur / 8))) ∧
  (∀ (v : BitVec 8) (s : State),
    (8 ≤ s.rem → ∃ hz : BitVec 20, hz.toNat = v.toNat * 1000 ∧
      exec (.xsr8k v) s = .next { s with
        cur := s.cur + 8
        fh := { s.fh with extendedSampleRate := BitVec.ofNat 16 v.toNat, sampleRateHz := hz }
        elem := .caCode }) ∧
    (s.rem < 8 → Raises (exec (.xsr8k v) s) s .outOfData (s.cur / 8)))

/-- 43 R179, R180 (the default code numbers are PRESUMED, log 8): two classes of code, by default `1101` and `1110`,
are followed by a 16-bit rate in Hz and in tens of Hz. -/
def Obligations.SampleRateExtra16 : Prop :=
  (∀ s : State, ∀ p ∈ srCodes,
    (srTable s.params p.2 = .extra16Hz → exec p.1 s = .next { s with elem := .xsr16 }) ∧
    (srTable s.params p.2 = .extra16TensHz → exec p.1 s = .next { s with elem := .xsr16t })) ∧
  srTable defaultParams 0b1101 = .extra16Hz ∧ srTable defaultParams 0b1110 = .extra16TensHz ∧
  (∀ (v : BitVec 16) (s : State),
    (16 ≤ s.rem → ∃ hz : BitVec 20, hz.toNat = v.toNat ∧
      exec (.xsr16 v) s = .next { s with
        cur := s.cur + 16, fh := { s.fh with extendedSampleRate := v, sampleRateHz := hz }, elem := .caCode }) ∧
    (16 ≤ s.rem → ∃ hz : BitVec 20, hz.toNat = v.toNat * 10 ∧
      exec (.xsr16t v) s = .next { s with
        cur := s.cur + 16, fh := { s.fh with extendedSampleRate := v, sampleRateHz := hz }, elem := .caCode }) ∧
    (s.rem < 16 → Raises (exec (.xsr16 v) s) s .outOfData (s.cur / 8) ∧
      Raises (exec (.xsr16t v) s) s .outOfData (s.cur / 8)))

/-- 43 R176, R177, R181 (that a class means *from StreamInfo* is decision D37): the sample-rate codes that read no
field. The last two clauses are the default table (the numbers are PRESUMED, log 8). -/
def Obligations.LiteralSampleRates : Prop :=
  (∀ s : State, ∀ p ∈ srCodes,
    (srTable s.params p.2 = .fromStreamInfo →
      exec p.1 s = .next { s with fh := { s.fh with sampleRateHz := s.si.sampleRateHz }, elem := .caCode }) ∧
    (∀ hz, srTable s.params p.2 = .literal hz →
      exec p.1 s = .next { s with fh := { s.fh with sampleRateHz := hz }, elem := .caCode })) ∧
  srTable defaultParams 0b0000 = .fromStreamInfo ∧
  (∀ p ∈ [(0b0001#4, 88200), (0b0010, 176400), (0b0011, 192000), (0b0100, 8000), (0b0101, 16000), (0b0110, 22050),
      (0b0111, 24000), (0b1000, 32000), (0b1001, 44100), (0b1010, 48000), (0b1011, 96000)],
    srTable defaultParams p.1 = .literal (BitVec.ofNat 20 p.2))

/-- 43 R182, R183: the channel count is the table's for an independent code and 2 for the three stereo classes. The
last clauses are the default table: the code plus 1 for the codes 0 to 7, and 2 for 8, 9 and 10 (PRESUMED, log 8). -/
def Obligations.ChannelCounts : Prop :=
  (∀ s : State, ∀ p ∈ caCodes,
    (∀ n, caTable s.params p.2 = .independent n →
      exec p.1 s = .next { s with fh := { s.fh with channelCount := n }, elem := .ssCode }) ∧
    (caTable s.params p.2 = .leftSide ∨ caTable s.params p.2 = .sideRight ∨ caTable s.params p.2 = .midSide →
      exec p.1 s = .next { s with fh := { s.fh with channelCount := 2 }, elem := .ssCode })) ∧
  (∀ c : BitVec 4, c.toNat < 8 → caTable defaultParams c = .independent (c + 1)) ∧
  caTable defaultParams 0b1000 = .leftSide ∧ caTable defaultParams 0b1001 = .sideRight ∧
  caTable defaultParams 0b1010 = .midSide

/-- 43 R185 to R187 (that a class means *from StreamInfo* is decision D37): the sample-size codes. The last two
clauses are the default table (the numbers are PRESUMED, log 8). -/
def Obligations.SampleSizes : Prop :=
  (∀ s : State, ∀ p ∈ ssCodes,
    (ssTable s.params p.2 = .fromStreamInfo →
      exec p.1 s = .next { s with fh := { s.fh with sampleSize := s.si.bitsPerSample }, elem := .crc8 }) ∧
    (∀ n, ssTable s.params p.2 = .literal n →
      exec p.1 s = .next { s with fh := { s.fh with sampleSize := n }, elem := .crc8 })) ∧
  ssTable defaultParams 0b000 = .fromStreamInfo ∧
  (∀ p ∈ [(0b001#3, 8), (0b010, 12), (0b100, 16), (0b101, 20), (0b110, 24)],
    ssTable defaultParams p.1 = .literal (BitVec.ofNat 6 p.2))

/-- 43 R175, R192, 30 R85: from the block-size code on, with codes that are not reserved and the bits there, the
framer comes to the CRC-8 byte after the bytes of the two escape fields and no others, in at most six steps, and
writes nothing but `FH.*`. -/
def Obligations.EscapesAddTheirBytes : Prop :=
  ∀ s : State, s.elem = .bsCode →
    let bs := bsTable s.params s.fh.blockSizeCode
    let sr := srTable s.params s.fh.sampleRateCode
    bs ≠ .reserved → sr ≠ .reserved → caTable s.params s.fh.channelAssignmentCode ≠ .reserved →
    ssTable s.params s.fh.sampleSizeCode ≠ .reserved →
    let xb := if bs = .extra8 then 1 else if bs = .extra16 then 2 else 0
    let xs := if sr = .extra8kHz then 1 else if sr = .extra16Hz ∨ sr = .extra16TensHz then 2 else 0
    8 * (xb + xs) ≤ s.rem →
    ∃ n fh, n ≤ 6 ∧ fh.start = s.fh.start ∧ fh.frameOrSampleIndex = s.fh.frameOrSampleIndex ∧
      Host.Core.run core n s = .next { s with cur := s.cur + 8 * (xb + xs), fh := fh, elem := .crc8 }

/-- 43 R190: the CRC-8 byte is compared with the CRC-8 (by default of the polynomial 0x07) of the header bytes before
it; agreement and, under the lenient policy, disagreement (reported, and marked) go on to the first subframe; under
the strict policy disagreement raises `HeaderChecksumMismatch` at the byte; the read itself comes first. (A channel
count of 0, which no code of the default table gives, has no first subframe: `RangesKept`.) -/
def Obligations.HeaderCrcVerdict : Prop :=
  defaultParams.crc8.poly = 0x07 ∧
  ∀ (v : BitVec 8) (s : State),
    let want := crc8 s.params.crc8 (s.bytes s.fh.start (s.cur / 8))
    (8 ≤ s.rem → 1 ≤ s.fh.channelCount.toNat → v = want →
      exec (.crc8 v) s = .next { s with
        cur := s.cur + 8, fh := { s.fh with headerCrc8 := v, headerCrcOk := true }, ch := 0, elem := .sfh }) ∧
    (8 ≤ s.rem → 1 ≤ s.fh.channelCount.toNat → v ≠ want → s.policy = true →
      exec (.crc8 v) s = .next { s with
        cur := s.cur + 8, fh := { s.fh with headerCrc8 := v, headerCrcOk := false }, ch := 0, elem := .sfh,
        out := s.out ++ [.report 6 (s.cur / 8)] }) ∧
    (8 ≤ s.rem → v ≠ want → s.policy = false →
      Raises (exec (.crc8 v) s) s .headerChecksumMismatch (s.cur / 8)) ∧
    (s.rem < 8 → Raises (exec (.crc8 v) s) s .outOfData (s.cur / 8))

/-! ## The index -/

/-- 44 R202 (the byte patterns of the index are PRESUMED, log 8): an index of one byte. -/
def Obligations.IndexOneByte : Prop :=
  ∀ (v : BitVec 7) (s : State),
    (8 ≤ s.rem → exec (.idx1 v) s = .next { s with
      cur := s.cur + 8
      fh := { s.fh with frameOrSampleIndex := BitVec.ofNat 36 v.toNat, indexBytes := 1 }
      elem := .bsCode }) ∧
    (s.rem < 8 → Raises (exec (.idx1 v) s) s .outOfData (s.cur / 8))

/-- 44 R203, R204, R207 (which first bytes are invalid is PRESUMED, log 8; the check of a continuation byte is
decision D21; the counters between the bytes are the model's, log 1): the bytes of a longer index, one step each.
A first byte gives its data bits and says how many bytes follow; a continuation byte gives six more bits, the last
one writes the registers; a byte of the wrong form raises `MalformedIndex` at its own address. -/
def Obligations.IndexBytes : Prop :=
  (∀ s : State, 8 ≤ s.rem →
    (∀ v, exec (.idx2 v) s = .next { s with
      cur := s.cur + 8, idxAcc := BitVec.ofNat 36 v.toNat, idxLeft := 1, idxLen := 2, elem := .idxCont }) ∧
    (∀ v, exec (.idx3 v) s = .next { s with
      cur := s.cur + 8, idxAcc := BitVec.ofNat 36 v.toNat, idxLeft := 2, idxLen := 3, elem := .idxCont }) ∧
    (∀ v, exec (.idx4 v) s = .next { s with
      cur := s.cur + 8, idxAcc := BitVec.ofNat 36 v.toNat, idxLeft := 3, idxLen := 4, elem := .idxCont }) ∧
    (∀ v, exec (.idx5 v) s = .next { s with
      cur := s.cur + 8, idxAcc := BitVec.ofNat 36 v.toNat, idxLeft := 4, idxLen := 5, elem := .idxCont }) ∧
    (∀ v, exec (.idx6 v) s = .next { s with
      cur := s.cur + 8, idxAcc := BitVec.ofNat 36 v.toNat, idxLeft := 5, idxLen := 6, elem := .idxCont }) ∧
    exec .idx7 s = .next { s with cur := s.cur + 8, idxAcc := 0, idxLeft := 6, idxLen := 7, elem := .idxCont } ∧
    (∀ x, Raises (exec (.idxBad10 x) s) s .malformedIndex (s.cur / 8)) ∧
    Raises (exec .idxBadFF s) s .malformedIndex (s.cur / 8) ∧
    (∀ d, 2 ≤ s.idxLeft → exec (.idxCont 0b10 d) s = .next { s with
      cur := s.cur + 8, idxAcc := s.idxAcc <<< 6 ||| BitVec.ofNat 36 d.toNat, idxLeft := s.idxLeft - 1,
      elem := .idxCont }) ∧
    (∀ d, s.idxLeft = 1 → exec (.idxCont 0b10 d) s = .next { s with
      cur := s.cur + 8, idxAcc := s.idxAcc <<< 6 ||| BitVec.ofNat 36 d.toNat, idxLeft := 0
      fh := { s.fh with
        frameOrSampleIndex := s.idxAcc <<< 6 ||| BitVec.ofNat 36 d.toNat, indexBytes := s.idxLen }
      elem := .bsCode }) ∧
    (∀ top d, top ≠ 0b10 → Raises (exec (.idxCont top d) s) s .malformedIndex (s.cur / 8))) ∧
  (∀ s : State, s.rem < 8 → ∀ i : Instr, i.elem = .idx ∨ i.elem = .idxCont →
    Raises (exec i s) s .outOfData (s.cur / 8))

/-- 44 R200, R203, R205 (the byte patterns are PRESUMED, log 8): an index of `n` bytes, 2 to 7, of legal form comes in
`n` steps to the value of its data bits, the first bit most significant, overlong or not; nothing else is written but
the model's own counters. -/
def Obligations.IndexDecodesItsDataBits : Prop :=
  ∀ (s : State) (n : Nat), s.elem = .idx → s.cur % 8 = 0 → 2 ≤ n → n ≤ 7 → 8 * n ≤ s.rem →
    lead1 (s.streamBits 8) = n →
    (∀ i, 1 ≤ i → i < n → s.bitAt (s.cur + 8 * i) = true ∧ s.bitAt (s.cur + 8 * i + 1) = false) →
    ∃ acc left len, Host.Core.run core n s = .next { s with
      cur := s.cur + 8 * n
      fh := { s.fh with
        frameOrSampleIndex := BitVec.ofNat 36 (bitsVal (indexDataBits n (s.streamBits (8 * n))))
        indexBytes := BitVec.ofNat 3 n }
      idxAcc := acc, idxLeft := left, idxLen := len, elem := .bsCode }

/-! ## The subframes -/

/-- 46 R242: a Verbatim header stores its type and its flag; flag 1 is followed by the wasted-bits count, flag 0
stores a count of 0, and the samples follow at once (their width is stated in `WastedBitsAndWidth`); the flag bit
itself may be missing. -/
def Obligations.VerbatimHeader : Prop :=
  ∀ (s : State) (f : Subframe), s.ch.toNat < 8 → s.sf[s.ch.toNat]? = some f →
    (8 ≤ s.rem → exec (.sfhVerbatim true) s = .next { s with
      cur := s.cur + 8
      sf := s.sf.setIfInBounds s.ch.toNat { f with subframeType := .verbatim, wastedBitsPresent := true }
      elem := .wasted }) ∧
    (8 ≤ s.rem → 1 ≤ s.fh.sampleSize.toNat → s.fh.sampleSize.toNat ≤ 32 → s.fh.blockSize ≠ 0 →
      ∃ (width : BitVec 6) (samples : List Int), exec (.sfhVerbatim false) s = .next { s with
        cur := s.cur + 8
        sf := s.sf.setIfInBounds s.ch.toNat
          { subframeType := .verbatim, wastedBitsPresent := false, wastedBitCount := 0, samples := samples,
            width := width }
        elem := .sample }) ∧
    (∀ w, s.rem < 1 → Raises (exec (.sfhVerbatim w) s) s .outOfData (s.cur / 8)) ∧
    (∀ w, 1 ≤ s.rem → s.rem < 7 → Raises (exec (.sfhVerbatim w) s) s .outOfData ((s.cur + 1) / 8)) ∧
    (∀ w, s.rem = 7 → Raises (exec (.sfhVerbatim w) s) s .outOfData ((s.cur + 7) / 8))

/-- 46 R236 to R241 (the zero bit is decision D16, the unsupported types' moment D19): every other subframe type
is refused once its type code is read, the wasted-bits flag unread, at the byte where the code starts; a set zero
bit at its own byte, the code unread; the reads come first. -/
def Obligations.RefusedSubframes : Prop :=
  ∀ (s : State) (w : Bool), s.ch.toNat < 8 →
    (7 ≤ s.rem →
      Raises (exec (.sfhConstant w) s) s .unsupportedSubframeType ((s.cur + 1) / 8) ∧
      (∀ o, Raises (exec (.sfhFixed o w) s) s .unsupportedSubframeType ((s.cur + 1) / 8)) ∧
      (∀ o, Raises (exec (.sfhLpc o w) s) s .unsupportedSubframeType ((s.cur + 1) / 8)) ∧
      (∀ x, Raises (exec (.sfhRsvd00001x x w) s) s .reservedSubframeType ((s.cur + 1) / 8)) ∧
      (∀ x, Raises (exec (.sfhRsvd0001xx x w) s) s .reservedSubframeType ((s.cur + 1) / 8)) ∧
      (∀ x, Raises (exec (.sfhRsvd01xxxx x w) s) s .reservedSubframeType ((s.cur + 1) / 8))) ∧
    (1 ≤ s.rem → ∀ t, Raises (exec (.sfhRsvdZ t w) s) s .reservedSubframeType (s.cur / 8)) ∧
    (s.rem = 0 → ∀ i : Instr, i.elem = .sfh → Raises (exec i s) s .outOfData (s.cur / 8)) ∧
    (1 ≤ s.rem → s.rem < 7 → ∀ i : Instr, i.elem = .sfh → (∀ t v, i ≠ .sfhRsvdZ t v) →
      Raises (exec i s) s .outOfData ((s.cur + 1) / 8))

/-- 46 R243 to R245, 43 R184 (which channel is the side channel of a class, and that the count is the zeros plus 1,
are PRESUMED, log 8; the failure of a width below 1 is decision D20; the emptied array is DEDUCED, log 11): the width is
the sample size, plus 1 on the side channel, minus the count; the count is 0 when the flag is 0, else the length of
the unary code; a width below 1 raises `FrameSyncLost` where the code starts, after it was read. -/
def Obligations.WastedBitsAndWidth : Prop :=
  ∀ (s : State) (f : Subframe), s.ch.toNat < 8 → s.sf[s.ch.toNat]? = some f →
    let ca := caTable s.params s.fh.channelAssignmentCode
    let side :=
      if ca = .leftSide ∧ s.ch.toNat = 1 ∨ ca = .sideRight ∧ s.ch.toNat = 0 ∨ ca = .midSide ∧ s.ch.toNat = 1
      then 1 else 0
    let depth := s.fh.sampleSize.toNat + side
    (8 ≤ s.rem → 1 ≤ s.fh.sampleSize.toNat → s.fh.sampleSize.toNat ≤ 32 → s.fh.blockSize ≠ 0 →
      exec (.sfhVerbatim false) s = .next { s with
        cur := s.cur + 8
        sf := s.sf.setIfInBounds s.ch.toNat
          { subframeType := .verbatim, wastedBitsPresent := false, wastedBitCount := 0,
            width := BitVec.ofNat 6 depth, samples := [] }
        elem := .sample }) ∧
    ∀ k : Nat, 1 ≤ k →
      (k ≤ s.rem → k < depth → s.fh.sampleSize.toNat ≤ 32 → s.fh.blockSize ≠ 0 →
        exec (.wasted k) s = .next { s with
          cur := s.cur + k
          sf := s.sf.setIfInBounds s.ch.toNat
            { f with wastedBitCount := k, width := BitVec.ofNat 6 (depth - k), samples := [] }
          elem := .sample }) ∧
      (k ≤ s.rem → depth ≤ k → Raises (exec (.wasted k) s) s .frameSyncLost (s.cur / 8)) ∧
      (s.rem < k → Raises (exec (.wasted k) s) s .outOfData (s.cur / 8))

/-- 46 R246, 48 R276 (two's complement is PRESUMED, log 8; no restoring is decision D24): a sample is appended to
the array of its channel; after the last of `FH.blockSize` samples `CH` counts up, and the next subframe follows or
the footer; a sample that does not fit raises at the byte where it starts. -/
def Obligations.SampleStored : Prop :=
  ∀ (w : Nat) (field : BitVec 36) (s : State) (f : Subframe), s.ch.toNat < 8 → s.sf[s.ch.toNat]? = some f →
    1 ≤ w → w ≤ 36 →
    let sf := s.sf.setIfInBounds s.ch.toNat { f with samples := f.samples ++ [sext w field.toNat] }
    (w ≤ s.rem → f.samples.length + 1 < s.fh.blockSize.toNat →
      exec (.sample w field) s = .next { s with cur := s.cur + w, sf := sf, elem := .sample }) ∧
    (w ≤ s.rem → s.fh.blockSize.toNat ≤ f.samples.length + 1 → s.ch.toNat + 1 < s.fh.channelCount.toNat →
      exec (.sample w field) s = .next { s with cur := s.cur + w, sf := sf, ch := s.ch + 1, elem := .sfh }) ∧
    (w ≤ s.rem → s.fh.blockSize.toNat ≤ f.samples.length + 1 → s.fh.channelCount.toNat ≤ s.ch.toNat + 1 →
      exec (.sample w field) s = .next { s with cur := s.cur + w, sf := sf, ch := s.ch + 1, elem := .pad }) ∧
    (s.rem < w → Raises (exec (.sample w field) s) s .outOfData (s.cur / 8))

/-- 00 R10, 46 R246 (two's complement is PRESUMED, log 8): the value of a sample is its field read as two's
complement. -/
def Obligations.SextIsTwosComplement : Prop :=
  ∀ (n : Nat) (v : BitVec n), 1 ≤ n →
    sext n v.toNat = v.toInt ∧ -(2 ^ (n - 1) : Int) ≤ sext n v.toNat ∧ sext n v.toNat < 2 ^ (n - 1)

/-- 46 R246, R247 (two's complement is PRESUMED, log 8): the `m` samples that a subframe still lacks are read in `m`
steps, back to back, each from its own `width` bits; then the channel is counted up, and only its samples, `CUR`,
`CH` and the element changed. -/
def Obligations.VerbatimSamplesRun : Prop :=
  ∀ (m : Nat) (s : State) (f : Subframe), s.elem = .sample → s.ch.toNat < 8 → s.sf[s.ch.toNat]? = some f →
    1 ≤ m → f.samples.length + m = s.fh.blockSize.toNat → 1 ≤ f.width.toNat → f.width.toNat ≤ 36 →
    m * f.width.toNat ≤ s.rem →
    let w := f.width.toNat
    let read := (List.range m).map fun i => sext w (bitsVal ((s.advance (i * w)).streamBits w))
    ∃ e, Host.Core.run core m s = .next { s with
      cur := s.cur + m * w
      sf := s.sf.setIfInBounds s.ch.toNat { f with samples := f.samples ++ read }
      ch := s.ch + 1, elem := e } ∧
    (s.ch.toNat + 1 < s.fh.channelCount.toNat → e = .sfh) ∧
    (s.fh.channelCount.toNat ≤ s.ch.toNat + 1 → e = .pad)

/-! ## The footer -/

/-- 47 R260, 40 R103: the padding is passed over whatever its bits (decision D25), up to the byte boundary. -/
def Obligations.PadAlignsUnread : Prop :=
  ∀ (bits : Bits) (s : State),
    exec (.pad bits) s = .next { s with cur := s.cur + (8 - s.cur % 8) % 8, elem := .crc16 }

/-- 47 R262 (and R261, R263): the CRC-16 field is compared with the CRC-16 of the frame's bytes before it;
agreement and, under the lenient policy, disagreement (reported, and marked) emit the frame; under the strict
policy disagreement raises `FrameChecksumMismatch` at the field, and no frame is emitted; the read comes first. -/
def Obligations.FrameCrcVerdict : Prop :=
  ∀ (v : BitVec 16) (s : State),
    let want := crc16 s.params.crc16 (s.bytes s.fh.start (s.cur / 8))
    (16 ≤ s.rem → v = want → ∃ fr : FrameRecord, fr.footerCrc16 = v ∧ fr.footerCrcOk = true ∧
      fr.headerCrcOk = s.fh.headerCrcOk ∧
      exec (.crc16 v) s = .next { s with
        cur := s.cur + 16, fr := { footerCrc16 := v, footerCrcOk := true }, out := s.out ++ [.frame fr],
        phase := .frame, elem := .rest }) ∧
    (16 ≤ s.rem → v ≠ want → s.policy = true → ∃ fr : FrameRecord, fr.footerCrc16 = v ∧
      fr.footerCrcOk = false ∧ fr.headerCrcOk = s.fh.headerCrcOk ∧
      exec (.crc16 v) s = .next { s with
        cur := s.cur + 16, fr := { footerCrc16 := v, footerCrcOk := false }
        out := s.out ++ [.report 7 (s.cur / 8), .frame fr], phase := .frame, elem := .rest }) ∧
    (16 ≤ s.rem → v ≠ want → s.policy = false →
      Raises (exec (.crc16 v) s) s .frameChecksumMismatch (s.cur / 8)) ∧
    (s.rem < 16 → Raises (exec (.crc16 v) s) s .outOfData (s.cur / 8))

/-- 10 R41, 47 R263: the record of an emitted frame holds the thirteen header values, the two escape fields only
under codes of their classes, and one entry per channel of the frame, in order, with its four values. -/
def Obligations.FrameRecordContents : Prop :=
  ∀ (s t : State) (v : BitVec 16) (fr : FrameRecord), exec (.crc16 v) s = .next t →
    t.out.getLast? = some (.frame fr) →
    fr.header.blockingStrategyFixed = s.fh.blockingStrategyFixed ∧
    fr.header.blockSizeCode = s.fh.blockSizeCode ∧ fr.header.sampleRateCode = s.fh.sampleRateCode ∧
    fr.header.channelAssignmentCode = s.fh.channelAssignmentCode ∧
    fr.header.sampleSizeCode = s.fh.sampleSizeCode ∧
    fr.header.frameOrSampleIndex = s.fh.frameOrSampleIndex ∧
    (fr.header.extendedBlockSize =
      if bsTable s.params s.fh.blockSizeCode = .extra8 ∨ bsTable s.params s.fh.blockSizeCode = .extra16
      then some s.fh.extendedBlockSize else none) ∧
    (fr.header.extendedSampleRate =
      if srTable s.params s.fh.sampleRateCode = .extra8kHz ∨ srTable s.params s.fh.sampleRateCode = .extra16Hz ∨
        srTable s.params s.fh.sampleRateCode = .extra16TensHz
      then some s.fh.extendedSampleRate else none) ∧
    fr.header.headerCrc8 = s.fh.headerCrc8 ∧ fr.header.blockSize = s.fh.blockSize ∧
    fr.header.sampleRateHz = s.fh.sampleRateHz ∧ fr.header.channelCount = s.fh.channelCount ∧
    fr.header.sampleSize = s.fh.sampleSize ∧
    fr.subframes.length = min s.fh.channelCount.toNat 8 ∧
    (∀ c f, c < s.fh.channelCount.toNat → s.sf[c]? = some f →
      fr.subframes[c]? = some { subframeType := f.subframeType, wastedBitsPresent := f.wastedBitsPresent,
                                wastedBitCount := f.wastedBitCount, samples := f.samples })

/-! ## The checksum generators -/

/-- 45 R216, R219, R221 (a) (b), R222 (the conventions of the CRC-16 are PRESUMED, log 8): under the default
conventions the byte-wise generators are the bit-serial ones fed with the bytes' bits in stream order; a message
followed by its own checksum has checksum 0; the checksum of an exclusive or is the exclusive or of the checksums. -/
def Obligations.CrcSerialResidueLinear : Prop :=
  let c8 := crc8 defaultParams.crc8
  let c16 := crc16 defaultParams.crc16
  (∀ m : List Byte, c8 m = (bytesBits m).foldl (accBit 0x07) 0 ∧ c16 m = (bytesBits m).foldl (accBit 0x8005) 0) ∧
  (∀ m : List Byte, c8 (m ++ [c8 m]) = 0 ∧ c16 (m ++ [(c16 m).extractLsb' 8 8, (c16 m).extractLsb' 0 8]) = 0) ∧
  (∀ a b : List Byte, a.length = b.length →
    c8 (List.zipWith (· ^^^ ·) a b) = c8 a ^^^ c8 b ∧ c16 (List.zipWith (· ^^^ ·) a b) = c16 a ^^^ c16 b)

/-- 45 R221 (c): with the two generator polynomials, a change confined to 8 (16) consecutive bits always changes the
CRC-8 (CRC-16), from any start value; in particular a change of one byte does, under any start value, bit order and
final XOR. -/
def Obligations.CrcDetectsBursts : Prop :=
  (∀ (init : BitVec 8) (p x y q : Bits), x.length = y.length → x.length ≤ 8 → x ≠ y →
    (p ++ x ++ q).foldl (accBit 0x07) init ≠ (p ++ y ++ q).foldl (accBit 0x07) init) ∧
  (∀ (init : BitVec 16) (p x y q : Bits), x.length = y.length → x.length ≤ 16 → x ≠ y →
    (p ++ x ++ q).foldl (accBit 0x8005) init ≠ (p ++ y ++ q).foldl (accBit 0x8005) init) ∧
  (∀ (c8 : CrcParams 8) (c16 : CrcParams 16) (p q : List Byte) (x y : Byte), c8.poly = 0x07 → c16.poly = 0x8005 →
    x ≠ y → crc8 c8 (p ++ [x] ++ q) ≠ crc8 c8 (p ++ [y] ++ q) ∧ crc16 c16 (p ++ [x] ++ q) ≠ crc16 c16 (p ++ [y] ++ q))

/-! ## The host -/

/-- 48 R271, R275, R277, R279 (the commands are decision D2, the host's list is the model's, log 2; a command
outside its phase has no effect, log 9): what each move of the host does at a boundary. -/
def Obligations.HostMoves : Prop :=
  ∀ (s : State) (rest : List HostAction), s.atBoundary = true →
    (s.host = .start :: rest → s.phase = .idle → step s = .next { s with
      host := rest, cur := 0, policy := s.lenient, phase := .sig, elem := .sig }) ∧
    (s.host = .start :: rest → s.phase ≠ .idle → step s = .next { s with host := rest }) ∧
    (s.host = .next :: rest → s.phase = .frame → s.cur = 8 * s.len → step s = .next { s with
      host := rest, out := s.out ++ [.endOfStream], phase := .done }) ∧
    (s.host = .next :: rest → s.phase = .frame → s.cur ≠ 8 * s.len →
      step s = .next { s with host := rest, elem := .fhWord }) ∧
    (s.host = .next :: rest → s.phase ≠ .frame → step s = .next { s with host := rest }) ∧
    (∀ b, s.host = .setLenient b :: rest → step s = .next { s with host := rest, lenient := b }) ∧
    (∀ bytes, s.host = .setInput bytes :: rest → s.phase = .idle →
      ∃ mem, step s = .next { s with host := rest, mem := mem, len := bytes.length } ∧
        ∀ a, { s with mem := mem, len := bytes.length }.readByte? a = bytes[a]?)

/-- 70 R340, 10 R42, 48 R278 (decision D28; that the input, the parameters and the host's list outlive a reset is the
model's, log 2, 3 and 22; the values of the record registers are the model's, log 5, and nothing is said of them
here): `RESET` at any boundary, in any phase, gives every other register its reset value. -/
def Obligations.ResetCommand : Prop :=
  ∀ (s : State) (rest : List HostAction), s.atBoundary = true → s.host = .reset :: rest →
    ∃ t, step s = .next t ∧ t.cur = 0 ∧ t.phase = .idle ∧ t.lenient = false ∧ t.policy = false ∧ t.err = 0 ∧
      t.errOff = 0 ∧ t.siValid = false ∧ t.first = true ∧ t.seenSi = 0 ∧ t.ch = 0 ∧ t.out = [] ∧
      t.elem = .rest ∧ t.host = rest ∧ t.len = s.len ∧ t.params = s.params ∧
      ∀ a, t.readByte? a = s.readByte? a

/-- The stops of the model, by name (log 10, 12, 13; the spec gives these cases no effect: 10 R34 has no `SF[8]`, 40
R107 leaves such widths outside the contract, 20 R51 and 70 R351 say nothing of such a run). -/
def Obligations.StopsByName : Prop :=
  (∀ (s : State) (i : Instr), 8 ≤ s.ch.toNat → Elem.inSubframe i.elem = true →
    exec i s = .fault (.noSubframe s.ch)) ∧
  (∀ (s : State) (w : Nat) (field : BitVec 36), s.ch.toNat < 8 → w = 0 ∨ 36 < w →
    exec (.sample w field) s = .refused (.readBitsWidth w)) ∧
  (∀ (s : State) (bytes : List Byte) (rest : List HostAction), s.atBoundary = true →
    s.host = .setInput bytes :: rest → s.phase ≠ .idle → step s = .refused .inputChanged)

/-! ## The whole machine -/

/-- 10 R42, 00 R8 (the parameters are the default ones): the reset state, and that it meets every invariant stated
below. -/
def Obligations.ResetStateAndInvariants : Prop :=
  State.reset.cur = 0 ∧ State.reset.phase = .idle ∧ State.reset.lenient = false ∧ State.reset.policy = false ∧
  State.reset.err = 0 ∧ State.reset.errOff = 0 ∧ State.reset.siValid = false ∧ State.reset.first = true ∧
  State.reset.seenSi = 0 ∧ State.reset.ch = 0 ∧ State.reset.out = [] ∧ State.reset.params = defaultParams ∧
  State.reset.CursorInside ∧ State.reset.InputCanonical ∧ State.reset.PlaceAgrees ∧ State.reset.InRange ∧
  State.reset.SubframesInRange ∧
  State.reset.Aligned ∧ State.reset.RunShape

/-- 10 R21: the cursor never passes the end of the input, and stands at 0 before `START`. -/
def Obligations.CursorStaysInside : Prop :=
  ∀ s t : State, s.CursorInside → step s = .next t → t.CursorInside

/-- 20 R50 (the canonical form is the model's, log 4): the input stays in canonical form, below `LEN`. -/
def Obligations.InputStaysCanonical : Prop :=
  ∀ s t : State, s.InputCanonical → step s = .next t → t.InputCanonical

/-- 10 R22, 30 R85 (the element under way is the model's field, log 1): `PHASE` and the element agree. -/
def Obligations.PlaceStaysAgreed : Prop :=
  ∀ s t : State, s.PlaceAgrees → step s = .next t → t.PlaceAgrees

/-- 10 R25, R29 to R34, 30 R90 (`FH.sampleRateHz` apart, log 21; that the literals of the code tables fit is a premise
on the parameters): every register stays in its range; so do the code of `ERR`, the subframe registers (samples
within their width, the LPC order, the count with its flag) and the subframes of every emitted frame (10 R34). -/
def Obligations.RangesKept : Prop :=
  ∀ s t : State, s.InRange → step s = .next t → t.InRange ∧ (s.SubframesInRange → t.SubframesInRange)

/-- 20 R55: every element that the formats align starts on a byte boundary. -/
def Obligations.AlignmentKept : Prop :=
  ∀ s t : State, s.InRange → s.Aligned → step s = .next t → t.Aligned

/-- 48 R282, 10 R25, R27, R40, 42 R145: the shape of a run. -/
def Obligations.RunShapeKept : Prop :=
  ∀ s t : State, s.PlaceAgrees → s.RunShape → step s = .next t → t.RunShape

/-- 00 R12: with the registers in their ranges, which they stay in, a step always answers a next state, but where
the host breaks its duty about the input (20 R51). -/
def Obligations.EveryStepHasAnOutcome : Prop :=
  ∀ s : State, s.InRange →
    (∃ t, step s = .next t) ∨
    (step s = .refused .inputChanged ∧ s.phase ≠ .idle ∧ ∃ bytes, s.pendingAction = some (.setInput bytes))

/-- 20 R52, 10 R24, R40, 48 R272, 00 R6 (that the input outlives `RESET` is the model's, log 3; that State carries the
parameters, log 22): no step writes the parameters, nor the input but the host's setting of it; `POLICY` changes at an
accepted `START`, to the value of `CTRL.LENIENT`, and at `RESET` only, `CTRL.LENIENT` by the host only; `OUT` only
grows, by at most two events a step, but for `RESET`. -/
def Obligations.InputPolicyAndOutput : Prop :=
  ∀ s t : State, step s = .next t →
    t.params = s.params ∧
    ((∀ bytes, s.pendingAction ≠ some (.setInput bytes)) →
      t.len = s.len ∧ ∀ a, t.readByte? a = s.readByte? a) ∧
    (t.policy ≠ s.policy → (s.pendingAction = some .start ∧ s.phase = .idle ∧ t.policy = s.lenient) ∨
      s.pendingAction = some .reset) ∧
    (t.lenient ≠ s.lenient → (∃ b, s.pendingAction = some (.setLenient b) ∧ t.lenient = b) ∨
      s.pendingAction = some .reset) ∧
    (s.pendingAction ≠ some .reset → ∃ evs, evs.length ≤ 2 ∧ t.out = s.out ++ evs)

/-- 48 R270, R277, R278, 60 R301, R308: in `P_DONE` and in `P_ERR` nothing changes but the host's list and
`CTRL.LENIENT`, until `RESET`, which leads to `P_IDLE`. -/
def Obligations.TerminalPhasesStay : Prop :=
  ∀ s t : State, s.PlaceAgrees → s.phase = .done ∨ s.phase = .err → step s = .next t →
    (s.pendingAction ≠ some .reset → t = { s with host := t.host, lenient := t.lenient }) ∧
    (s.pendingAction = some .reset → t.phase = .idle)

/-- 60 R305: what the strict policy does not stop with a checksum failure, the lenient one does in the same way:
the policy softens the two checksum failures and nothing else. -/
def Obligations.LenientSoftensChecksumsOnly : Prop :=
  ∀ (i : Instr) (s t : State), exec i { s with policy := false } = .next t →
    ¬(t.phase = .err ∧ (t.err = 6 ∨ t.err = 7)) →
    exec i { s with policy := true } = .next { t with policy := true }

/-- 60 R306, R309: an element raises only the failures of its row of the table (the end of the chain counts with
the bodies, a reserved code with its own row, log 20); the failure is recorded, and what a consumer may rely on
holds. -/
def Obligations.FailuresOfEachElement : Prop :=
  ∀ (i : Instr) (s t : State), s.InRange → s.phase ≠ .err → exec i s = .next t → t.phase = .err →
    ∃ e ∈ Elem.failures i.elem, ∃ off, Raised s t e off

/-- 48 R279 with the `State written` of every element rule: an element that does not fail writes its own group of
registers only. Control, failure and host registers and the input are written by no element; `MB`, `FIRST`,
`SEEN_SI`, `SI` and `SI_VALID` by the metadata elements; `FH` by the header elements; `SF` by the subframe elements,
of the current channel alone; `FR` by `CRC16`; `CH` by `CRC8` and the subframe elements; `PHASE` by the signature,
the end of the chain and the end of a frame. -/
def Obligations.ElementsWriteTheirOwnRegisters : Prop :=
  ∀ (i : Instr) (s t : State), exec i s = .next t → t.phase ≠ .err →
    (t.lenient = s.lenient ∧ t.policy = s.policy ∧ t.err = s.err ∧ t.errOff = s.errOff ∧ t.host = s.host ∧
      t.len = s.len ∧ t.params = s.params ∧ ∀ a, t.readByte? a = s.readByte? a) ∧
    (Elem.isMeta i.elem = false →
      t.mb = s.mb ∧ t.first = s.first ∧ t.seenSi = s.seenSi ∧ t.si = s.si ∧ t.siValid = s.siValid) ∧
    (Elem.isHeader i.elem = false → t.fh = s.fh) ∧
    (Elem.inSubframe i.elem = false → t.sf = s.sf) ∧
    (∀ c : Nat, c ≠ s.ch.toNat → t.sf[c]? = s.sf[c]?) ∧
    (i.elem ≠ .crc16 → t.fr = s.fr) ∧
    (i.elem ≠ .crc8 → Elem.inSubframe i.elem = false → t.ch = s.ch) ∧
    (Elem.isMeta i.elem = false → i.elem ≠ .crc16 → t.phase = s.phase)

/-- 70 R341: whatever the registers without a reset value (and the model's index counters, log 1) hold at first, a
run from reset under any host makes the same moves: it differs in those registers alone, and `OUT`, `PHASE`, `ERR`,
`ERR_OFF` and the cursor are the same. So no value that log 5 chose is ever observed. -/
def Obligations.UnspecifiedNeverObserved : Prop :=
  ∀ (u : Unspecified) (host : List HostAction) (n : Nat) (t : State),
    Host.Core.run core n { State.reset with host := host } = .next t →
    ∃ u' : Unspecified,
      Host.Core.run core n ({ State.reset with host := host }.withUnspecified u) = .next (t.withUnspecified u')

/-- 48 R281 (a step is one element, log 1): the framer cannot hang: from any state of a run, left to itself, it comes
to rest (at a frame boundary, at the end or at a failure) within a number of element steps that the bits left
bound. -/
def Obligations.OwnStepsComeToRest : Prop :=
  ∀ s : State, s.CursorInside → s.InRange → s.host = [] →
    ∃ n t, n ≤ 5 * (8 * s.len - s.cur) + 5 ∧ Host.Core.run core n s = .next t ∧ t.elem = .rest
end

