-- ==== Sys2Proof/Laws/Decode.lean ====
section
/-! SUPPORT. The bit fields the decoder and the encoder are made of: lengths, and that reading a field off its
own bits gives it back. -/

namespace Sys2Proof

@[simp] theorem putBits_length (n v : Nat) : (putBits n v).length = n := by
  induction n with
  | zero => rfl
  | succ n ih => simp [putBits, ih]

@[simp] theorem putField_length {n : Nat} (v : BitVec n) : (putField v).length = n := putBits_length n _

theorem bitsVal_foldl (bs : Bits) (a : Nat) :
    bs.foldl (fun v b => 2 * v + b.toNat) a = a * 2 ^ bs.length + bitsVal bs := by
  induction bs generalizing a with
  | nil => simp [bitsVal]
  | cons b bs ih =>
    have h : bitsVal (b :: bs) = (2 * 0 + b.toNat) * 2 ^ bs.length + bitsVal bs := ih _
    rw [List.foldl_cons, ih, h, List.length_cons, Nat.pow_succ]
    ring

theorem bitsVal_append (bs cs : Bits) : bitsVal (bs ++ cs) = bitsVal bs * 2 ^ cs.length + bitsVal cs := by
  rw [bitsVal, List.foldl_append, bitsVal_foldl]; rfl

theorem bitsVal_cons (b : Bool) (bs : Bits) : bitsVal (b :: bs) = b.toNat * 2 ^ bs.length + bitsVal bs := by
  simpa [bitsVal] using bitsVal_append [b] bs

theorem bitsVal_lt (bs : Bits) : bitsVal bs < 2 ^ bs.length := by
  induction bs with
  | nil => simp [bitsVal]
  | cons b bs ih =>
    rw [bitsVal_cons, List.length_cons, Nat.pow_succ]
    have : b.toNat ≤ 1 := Bool.toNat_le b
    nlinarith

theorem putBits_mod (n v : Nat) : putBits n (v % 2 ^ n) = putBits n v := by
  induction n generalizing v with
  | zero => rfl
  | succ n ih =>
    simp only [putBits]
    congr 1
    · rw [Nat.pow_succ, Nat.mod_mul_right_div_self]
      simp
    · rw [← ih (v % 2 ^ (n + 1)), Nat.mod_mod_of_dvd _ (Nat.pow_dvd_pow 2 (Nat.le_succ n)), ih]

/-- The value of a field's own bits. -/
theorem bitsVal_putBits (n v : Nat) : bitsVal (putBits n v) = v % 2 ^ n := by
  induction n with
  | zero => simp [putBits, bitsVal, Nat.mod_one]
  | succ n ih =>
    rw [putBits, bitsVal_cons, ih, putBits_length, Nat.pow_succ, Nat.mod_mul]
    have h : (v / 2 ^ n % 2 == 1).toNat = v / 2 ^ n % 2 := by
      rcases Nat.mod_two_eq_zero_or_one (v / 2 ^ n) with h | h <;> simp [h]
    rw [h]; ring

/-- The bits of a run's own value. -/
theorem putBits_bitsVal (bs : Bits) : putBits bs.length (bitsVal bs) = bs := by
  induction bs with
  | nil => rfl
  | cons b bs ih =>
    have hlt := bitsVal_lt bs
    rw [List.length_cons, putBits, bitsVal_cons]
    congr 1
    · rw [Nat.mul_comm, Nat.mul_add_div (Nat.two_pow_pos _), Nat.div_eq_of_lt hlt]
      cases b <;> rfl
    · rw [← putBits_mod, Nat.mul_comm, Nat.mul_add_mod, Nat.mod_eq_of_lt hlt, ih]

@[simp] theorem getField_putField {n : Nat} (v : BitVec n) (bs : Bits) :
    getField n (putField v ++ bs) = (v, bs) := by
  have ht : (putField v ++ bs).take n = putField v := List.take_left' (putField_length v)
  have hd : (putField v ++ bs).drop n = bs := List.drop_left' (putField_length v)
  rw [getField, ht, hd, putField, bitsVal_putBits]
  simp

/-- A field that a run holds whole is its first bits. -/
theorem putField_getField {n : Nat} {bs : Bits} (h : n ≤ bs.length) :
    putField (getField n bs).1 ++ (getField n bs).2 = bs := by
  have hl : (bs.take n).length = n := by simp [h]
  have hlt := bitsVal_lt (bs.take n)
  rw [hl] at hlt
  have := putBits_bitsVal (bs.take n)
  rw [hl] at this
  simp only [getField, putField, BitVec.toNat_ofNat, Nat.mod_eq_of_lt hlt, this, List.take_append_drop]

@[simp] theorem getFlag_cons (b : Bool) (bs : Bits) : getFlag (b :: bs) = (b, bs) := rfl

/-- A run that holds the element is decoded. -/
theorem decode_of_le {p : Params} {e : Elem} {w : Nat} {bs : Bits} (h : e.bits w ≤ bs.length) :
    decode p e w bs = decodeWhole p e w bs := if_neg (Nat.not_lt.2 h)

theorem le_of_decode {p : Params} {e : Elem} {w : Nat} {bs rest : Bits} {i : Instr}
    (h : decode p e w bs = .ok (i, rest)) :
    e.bits w ≤ bs.length ∧ decodeWhole p e w bs = .ok (i, rest) := by
  unfold decode at h
  split at h
  · cases h
  · exact ⟨by omega, h⟩

/-- The unary code of `k + 1` bits is read back. -/
theorem decodeUnary_replicate (k : Nat) (bs : Bits) :
    decodeUnary (List.replicate k false ++ true :: bs) = some (k + 1, bs) := by
  induction k with
  | zero => rfl
  | succ k ih => simp [List.replicate_succ, decodeUnary, ih]

/-- A unary code that is read is at least one bit long and is what stands there. -/
theorem decodeUnary_some {bs rest : Bits} {k : Nat} (h : decodeUnary bs = some (k, rest)) :
    1 ≤ k ∧ List.replicate (k - 1) false ++ true :: rest = bs := by
  induction bs generalizing k with
  | nil => cases h
  | cons b bs ih =>
    cases b with
    | true => cases h; exact ⟨Nat.le_refl 1, rfl⟩
    | false =>
      simp only [decodeUnary, Option.map_eq_some_iff] at h
      obtain ⟨⟨k', r⟩, hk', he⟩ := h
      cases he
      obtain ⟨h1, h2⟩ := ih hk'
      refine ⟨Nat.le_add_left 1 k', ?_⟩
      obtain ⟨j, rfl⟩ : ∃ j, k' = j + 1 := ⟨k' - 1, by omega⟩
      simp only [Nat.add_sub_cancel] at h2 ⊢
      rw [List.replicate_succ, List.cons_append, h2]

/-- A run with a 1-bit in it holds a unary code. -/
theorem decodeUnary_isSome {bs : Bits} (h : true ∈ bs) : ∃ k rest, decodeUnary bs = some (k, rest) := by
  induction bs with
  | nil => cases h
  | cons b bs ih =>
    cases b with
    | true => exact ⟨1, bs, rfl⟩
    | false =>
      obtain ⟨k, rest, hk⟩ := ih (by simpa using h)
      exact ⟨k + 1, rest, by simp [decodeUnary, hk]⟩

end Sys2Proof
end

