-- ==== Sys2Proof/Laws/Memory.lean ====
section
/-! SUPPORT. The input space: reading after writing, and that every operation keeps the canonical form. -/

namespace Sys2Proof.Machine

theorem Memory.wfFrom_mono {lo lo' : Nat} (h : lo' ≤ lo) :
    ∀ {m : List Host.Cell}, Memory.wfFrom lo m = true → Memory.wfFrom lo' m = true
  | [], _ => rfl
  | (k, v) :: m, hm => by
    simp only [Memory.wfFrom, Bool.and_eq_true, decide_eq_true_eq] at hm ⊢
    exact ⟨⟨by omega, hm.1.2⟩, hm.2⟩

/-- Writing keeps the form, from any bound at or below the address written. -/
theorem Memory.write_wfFrom (a : Nat) (v : Byte) :
    ∀ {m : List Host.Cell} {lo : Nat}, Memory.wfFrom lo m = true → lo ≤ a →
      Memory.wfFrom lo (Memory.write m a v) = true
  | [], lo, _, ha => by
    simp only [Memory.write]
    split
    · rfl
    · rename_i hv
      simp only [Memory.wfFrom, Bool.and_eq_true, decide_eq_true_eq]
      exact ⟨⟨ha, by simpa using hv⟩, trivial⟩
  | (k, w) :: m, lo, hm, ha => by
    simp only [Memory.wfFrom, Bool.and_eq_true, decide_eq_true_eq] at hm
    obtain ⟨⟨hk, hw⟩, hm⟩ := hm
    simp only [Memory.write]
    split
    · split
      · simp only [Memory.wfFrom, Bool.and_eq_true, decide_eq_true_eq]
        exact ⟨⟨hk, hw⟩, hm⟩
      · rename_i h1 h2
        simp only [Memory.wfFrom, Bool.and_eq_true, decide_eq_true_eq]
        exact ⟨⟨ha, by simpa using h2⟩, ⟨⟨by omega, hw⟩, hm⟩⟩
    · split
      · split
        · exact Memory.wfFrom_mono (by omega) hm
        · rename_i h1 h2 h3
          subst h2
          simp only [Memory.wfFrom, Bool.and_eq_true, decide_eq_true_eq]
          exact ⟨⟨ha, by simpa using h3⟩, hm⟩
      · simp only [Memory.wfFrom, Bool.and_eq_true, decide_eq_true_eq]
        exact ⟨⟨hk, hw⟩, Memory.write_wfFrom a v hm (by omega)⟩

theorem Memory.write_wf {m : List Host.Cell} (a : Nat) (v : Byte) (h : Memory.wf m = true) :
    Memory.wf (Memory.write m a v) = true := Memory.write_wfFrom a v h (Nat.zero_le a)

theorem Memory.writeBytes_wf {m : List Host.Cell} (a : Nat) (bs : List Byte) (h : Memory.wf m = true) :
    Memory.wf (Memory.writeBytes m a bs) = true := by
  induction bs generalizing m a with
  | nil => exact h
  | cons b bs ih => exact ih (a + 1) (Memory.write_wf a b h)

theorem Memory.ofBytes_wfFrom (bs : List Byte) (a lo : Nat) (h : lo ≤ a) :
    Memory.wfFrom lo (Memory.ofBytes a bs) = true := by
  induction bs generalizing a lo with
  | nil => rfl
  | cons b bs ih =>
    simp only [Memory.ofBytes]
    split
    · exact ih (a + 1) lo (by omega)
    · rename_i hb
      simp only [Memory.wfFrom, Bool.and_eq_true, decide_eq_true_eq]
      exact ⟨⟨h, by simpa using hb⟩, ih (a + 1) (a + 1) (Nat.le_refl _)⟩

theorem Memory.ofBytes_wf (bs : List Byte) : Memory.wf (Memory.ofBytes 0 bs) = true :=
  Memory.ofBytes_wfFrom bs 0 0 (Nat.le_refl 0)

/-- The cells of a byte array lie below its end. -/
theorem Memory.ofBytes_below (bs : List Byte) (a : Nat) :
    Memory.below (a + bs.length) (Memory.ofBytes a bs) = true := by
  simp only [Memory.below, List.all_eq_true, decide_eq_true_eq]
  induction bs generalizing a with
  | nil => simp [Memory.ofBytes]
  | cons b bs ih =>
    intro c hc
    have key : ∀ c ∈ Memory.ofBytes (a + 1) bs, c.1 < a + (b :: bs).length := fun c hc => by
      have := ih (a + 1) c hc
      simp only [List.length_cons]; omega
    simp only [Memory.ofBytes] at hc
    split at hc
    · exact key c hc
    · rcases List.mem_cons.1 hc with rfl | hc
      · simp
      · exact key c hc

/-- A byte below the first address of a canonical list reads as 0. -/
theorem Memory.read_of_lt {m : List Host.Cell} {lo a : Nat} (h : Memory.wfFrom lo m = true) (ha : a < lo) :
    Memory.read m a = 0 := by
  induction m generalizing lo with
  | nil => rfl
  | cons c m ih =>
    obtain ⟨k, v⟩ := c
    simp only [Memory.wfFrom, Bool.and_eq_true, decide_eq_true_eq] at h
    rw [Memory.read, if_neg (by omega)]
    exact ih h.2 (by omega)

/-- Reading after writing: the byte written, and every other byte as before. -/
theorem Memory.read_write {m : List Host.Cell} {lo : Nat} (h : Memory.wfFrom lo m = true) (a b : Nat) (v : Byte) :
    Memory.read (Memory.write m a v) b = if b = a then v else Memory.read m b := by
  induction m generalizing lo with
  | nil =>
    simp only [Memory.write]
    split
    · rename_i hv
      simp only [Memory.read, hv, ite_self]
    · simp only [Memory.read, @eq_comm _ b a]
  | cons c m ih =>
    obtain ⟨k, w⟩ := c
    simp only [Memory.wfFrom, Bool.and_eq_true, decide_eq_true_eq] at h
    have hz : ∀ x, x < k + 1 → Memory.read m x = 0 := fun x hx => Memory.read_of_lt h.2 hx
    simp only [Memory.write]
    split
    · split
      · rename_i h1 h2
        subst h2
        by_cases hb : b = a
        · subst hb; rw [Memory.read, if_neg (by omega), hz _ (by omega)]; simp
        · simp [hb]
      · by_cases hb : b = a
        · simp [Memory.read, hb]
        · rw [Memory.read, if_neg (fun h => hb h.symm)]; simp [hb]
    · split
      · rename_i h1 h2
        subst h2
        split
        · rename_i h3
          subst h3
          by_cases hb : b = a
          · subst hb; rw [hz _ (by omega)]; simp
          · simp [Memory.read, hb, Ne.symm hb]
        · by_cases hb : b = a
          · simp [Memory.read, hb]
          · simp [Memory.read, hb, Ne.symm hb]
      · rw [Memory.read, Memory.read, ih h.2]
        by_cases hk : k = b
        · subst hk; simp; omega
        · simp [hk]

/-- A byte array reads back byte for byte. -/
theorem Memory.read_ofBytes (bs : List Byte) (a i : Nat) :
    Memory.read (Memory.ofBytes a bs) (a + i) = bs.getD i 0 := by
  induction bs generalizing a i with
  | nil => simp [Memory.ofBytes, Memory.read]
  | cons b bs ih =>
    simp only [Memory.ofBytes]
    cases i with
    | zero =>
      split
      · rename_i hb
        have := Memory.read_of_lt (Memory.ofBytes_wfFrom bs (a + 1) (a + 1) (Nat.le_refl _)) (Nat.lt_succ_self a)
        simpa [hb] using this
      · simp [Memory.read]
    | succ i =>
      have := ih (a + 1) i
      rw [show a + (i + 1) = a + 1 + i by omega]
      split
      · simpa using this
      · rw [Memory.read, if_neg (by omega)]; simpa using this

/-- Equal canonical memories are those that read alike. -/
theorem Memory.wf_ext {m m' : List Host.Cell} {lo : Nat} (h : Memory.wfFrom lo m = true)
    (h' : Memory.wfFrom lo m' = true) (hr : ∀ a, Memory.read m a = Memory.read m' a) : m = m' := by
  induction m generalizing m' lo with
  | nil =>
    cases m' with
    | nil => rfl
    | cons c m' =>
      obtain ⟨k, v⟩ := c
      simp only [Memory.wfFrom, Bool.and_eq_true, decide_eq_true_eq] at h'
      have := hr k
      simp [Memory.read] at this
      simp [← this] at h'
  | cons c m ih =>
    obtain ⟨k, v⟩ := c
    simp only [Memory.wfFrom, Bool.and_eq_true, decide_eq_true_eq] at h
    cases m' with
    | nil =>
      have := hr k
      simp [Memory.read] at this
      simp [this] at h
    | cons c' m' =>
      obtain ⟨k', v'⟩ := c'
      simp only [Memory.wfFrom, Bool.and_eq_true, decide_eq_true_eq] at h'
      have hz : ∀ x, x < k + 1 → Memory.read m x = 0 := fun x hx => Memory.read_of_lt h.2 hx
      have hz' : ∀ x, x < k' + 1 → Memory.read m' x = 0 := fun x hx => Memory.read_of_lt h'.2 hx
      have hk : k = k' := by
        have h1 := hr k
        have h2 := hr k'
        simp only [Memory.read] at h1 h2
        by_contra hne
        rcases Nat.lt_or_gt_of_ne hne with hlt | hlt
        · rw [if_pos trivial, if_neg (by omega), hz' k (by omega)] at h1
          simp [h1] at h
        · rw [if_pos trivial, if_neg (by omega), hz k' (by omega)] at h2
          simp [← h2] at h'
      subst hk
      have hv : v = v' := by simpa [Memory.read] using hr k
      subst hv
      refine congrArg _ (ih h.2 h'.2 fun a => ?_)
      by_cases ha : k = a
      · subst ha; rw [hz _ (by omega), hz' _ (by omega)]
      · simpa [Memory.read, ha] using hr a

theorem Memory.reset_wf : Memory.wf State.reset.mem = true := rfl

end Sys2Proof.Machine
end

