-- ==== Sys2Proof/Laws/State.lean ====
section
/-! SUPPORT. What each update of the state leaves in each field: one lemma a field and update, each true by
unfolding, so that no proof opens a record update. -/

namespace Sys2Proof.Machine

/-! ## `State.advance` -/

@[simp] theorem State.advance_cur (s : State) (n : Nat) : (s.advance n).cur = s.cur + n := rfl
@[simp] theorem State.advance_phase (s : State) (n : Nat) : (s.advance n).phase = s.phase := rfl
@[simp] theorem State.advance_lenient (s : State) (n : Nat) : (s.advance n).lenient = s.lenient := rfl
@[simp] theorem State.advance_policy (s : State) (n : Nat) : (s.advance n).policy = s.policy := rfl
@[simp] theorem State.advance_err (s : State) (n : Nat) : (s.advance n).err = s.err := rfl
@[simp] theorem State.advance_errOff (s : State) (n : Nat) : (s.advance n).errOff = s.errOff := rfl
@[simp] theorem State.advance_siValid (s : State) (n : Nat) : (s.advance n).siValid = s.siValid := rfl
@[simp] theorem State.advance_mb (s : State) (n : Nat) : (s.advance n).mb = s.mb := rfl
@[simp] theorem State.advance_first (s : State) (n : Nat) : (s.advance n).first = s.first := rfl
@[simp] theorem State.advance_seenSi (s : State) (n : Nat) : (s.advance n).seenSi = s.seenSi := rfl
@[simp] theorem State.advance_si (s : State) (n : Nat) : (s.advance n).si = s.si := rfl
@[simp] theorem State.advance_fh (s : State) (n : Nat) : (s.advance n).fh = s.fh := rfl
@[simp] theorem State.advance_ch (s : State) (n : Nat) : (s.advance n).ch = s.ch := rfl
@[simp] theorem State.advance_sf (s : State) (n : Nat) : (s.advance n).sf = s.sf := rfl
@[simp] theorem State.advance_fr (s : State) (n : Nat) : (s.advance n).fr = s.fr := rfl
@[simp] theorem State.advance_out (s : State) (n : Nat) : (s.advance n).out = s.out := rfl
@[simp] theorem State.advance_mem (s : State) (n : Nat) : (s.advance n).mem = s.mem := rfl
@[simp] theorem State.advance_len (s : State) (n : Nat) : (s.advance n).len = s.len := rfl
@[simp] theorem State.advance_params (s : State) (n : Nat) : (s.advance n).params = s.params := rfl
@[simp] theorem State.advance_host (s : State) (n : Nat) : (s.advance n).host = s.host := rfl
@[simp] theorem State.advance_elem (s : State) (n : Nat) : (s.advance n).elem = s.elem := rfl
@[simp] theorem State.advance_idxAcc (s : State) (n : Nat) : (s.advance n).idxAcc = s.idxAcc := rfl
@[simp] theorem State.advance_idxLeft (s : State) (n : Nat) : (s.advance n).idxLeft = s.idxLeft := rfl
@[simp] theorem State.advance_idxLen (s : State) (n : Nat) : (s.advance n).idxLen = s.idxLen := rfl

/-! ## `State.goto` -/

@[simp] theorem State.goto_cur (s : State) (e : Elem) : (s.goto e).cur = s.cur := rfl
@[simp] theorem State.goto_phase (s : State) (e : Elem) : (s.goto e).phase = s.phase := rfl
@[simp] theorem State.goto_lenient (s : State) (e : Elem) : (s.goto e).lenient = s.lenient := rfl
@[simp] theorem State.goto_policy (s : State) (e : Elem) : (s.goto e).policy = s.policy := rfl
@[simp] theorem State.goto_err (s : State) (e : Elem) : (s.goto e).err = s.err := rfl
@[simp] theorem State.goto_errOff (s : State) (e : Elem) : (s.goto e).errOff = s.errOff := rfl
@[simp] theorem State.goto_siValid (s : State) (e : Elem) : (s.goto e).siValid = s.siValid := rfl
@[simp] theorem State.goto_mb (s : State) (e : Elem) : (s.goto e).mb = s.mb := rfl
@[simp] theorem State.goto_first (s : State) (e : Elem) : (s.goto e).first = s.first := rfl
@[simp] theorem State.goto_seenSi (s : State) (e : Elem) : (s.goto e).seenSi = s.seenSi := rfl
@[simp] theorem State.goto_si (s : State) (e : Elem) : (s.goto e).si = s.si := rfl
@[simp] theorem State.goto_fh (s : State) (e : Elem) : (s.goto e).fh = s.fh := rfl
@[simp] theorem State.goto_ch (s : State) (e : Elem) : (s.goto e).ch = s.ch := rfl
@[simp] theorem State.goto_sf (s : State) (e : Elem) : (s.goto e).sf = s.sf := rfl
@[simp] theorem State.goto_fr (s : State) (e : Elem) : (s.goto e).fr = s.fr := rfl
@[simp] theorem State.goto_out (s : State) (e : Elem) : (s.goto e).out = s.out := rfl
@[simp] theorem State.goto_mem (s : State) (e : Elem) : (s.goto e).mem = s.mem := rfl
@[simp] theorem State.goto_len (s : State) (e : Elem) : (s.goto e).len = s.len := rfl
@[simp] theorem State.goto_params (s : State) (e : Elem) : (s.goto e).params = s.params := rfl
@[simp] theorem State.goto_host (s : State) (e : Elem) : (s.goto e).host = s.host := rfl
@[simp] theorem State.goto_elem (s : State) (e : Elem) : (s.goto e).elem = e := rfl
@[simp] theorem State.goto_idxAcc (s : State) (e : Elem) : (s.goto e).idxAcc = s.idxAcc := rfl
@[simp] theorem State.goto_idxLeft (s : State) (e : Elem) : (s.goto e).idxLeft = s.idxLeft := rfl
@[simp] theorem State.goto_idxLen (s : State) (e : Elem) : (s.goto e).idxLen = s.idxLen := rfl

/-! ## `State.emit` -/

@[simp] theorem State.emit_cur (s : State) (ev : Event) : (s.emit ev).cur = s.cur := rfl
@[simp] theorem State.emit_phase (s : State) (ev : Event) : (s.emit ev).phase = s.phase := rfl
@[simp] theorem State.emit_lenient (s : State) (ev : Event) : (s.emit ev).lenient = s.lenient := rfl
@[simp] theorem State.emit_policy (s : State) (ev : Event) : (s.emit ev).policy = s.policy := rfl
@[simp] theorem State.emit_err (s : State) (ev : Event) : (s.emit ev).err = s.err := rfl
@[simp] theorem State.emit_errOff (s : State) (ev : Event) : (s.emit ev).errOff = s.errOff := rfl
@[simp] theorem State.emit_siValid (s : State) (ev : Event) : (s.emit ev).siValid = s.siValid := rfl
@[simp] theorem State.emit_mb (s : State) (ev : Event) : (s.emit ev).mb = s.mb := rfl
@[simp] theorem State.emit_first (s : State) (ev : Event) : (s.emit ev).first = s.first := rfl
@[simp] theorem State.emit_seenSi (s : State) (ev : Event) : (s.emit ev).seenSi = s.seenSi := rfl
@[simp] theorem State.emit_si (s : State) (ev : Event) : (s.emit ev).si = s.si := rfl
@[simp] theorem State.emit_fh (s : State) (ev : Event) : (s.emit ev).fh = s.fh := rfl
@[simp] theorem State.emit_ch (s : State) (ev : Event) : (s.emit ev).ch = s.ch := rfl
@[simp] theorem State.emit_sf (s : State) (ev : Event) : (s.emit ev).sf = s.sf := rfl
@[simp] theorem State.emit_fr (s : State) (ev : Event) : (s.emit ev).fr = s.fr := rfl
@[simp] theorem State.emit_out (s : State) (ev : Event) : (s.emit ev).out = s.out ++ [ev] := rfl
@[simp] theorem State.emit_mem (s : State) (ev : Event) : (s.emit ev).mem = s.mem := rfl
@[simp] theorem State.emit_len (s : State) (ev : Event) : (s.emit ev).len = s.len := rfl
@[simp] theorem State.emit_params (s : State) (ev : Event) : (s.emit ev).params = s.params := rfl
@[simp] theorem State.emit_host (s : State) (ev : Event) : (s.emit ev).host = s.host := rfl
@[simp] theorem State.emit_elem (s : State) (ev : Event) : (s.emit ev).elem = s.elem := rfl
@[simp] theorem State.emit_idxAcc (s : State) (ev : Event) : (s.emit ev).idxAcc = s.idxAcc := rfl
@[simp] theorem State.emit_idxLeft (s : State) (ev : Event) : (s.emit ev).idxLeft = s.idxLeft := rfl
@[simp] theorem State.emit_idxLen (s : State) (ev : Event) : (s.emit ev).idxLen = s.idxLen := rfl

/-! ## `State.raise` -/

@[simp] theorem State.raise_cur (s : State) (e : Failure) (off : Nat) : (s.raise e off).cur = s.cur := rfl
@[simp] theorem State.raise_phase (s : State) (e : Failure) (off : Nat) : (s.raise e off).phase = .err := rfl
@[simp] theorem State.raise_lenient (s : State) (e : Failure) (off : Nat) : (s.raise e off).lenient = s.lenient := rfl
@[simp] theorem State.raise_policy (s : State) (e : Failure) (off : Nat) : (s.raise e off).policy = s.policy := rfl
@[simp] theorem State.raise_err (s : State) (e : Failure) (off : Nat) : (s.raise e off).err = e.code := rfl
@[simp] theorem State.raise_errOff (s : State) (e : Failure) (off : Nat) : (s.raise e off).errOff = off := rfl
@[simp] theorem State.raise_siValid (s : State) (e : Failure) (off : Nat) : (s.raise e off).siValid = s.siValid := rfl
@[simp] theorem State.raise_mb (s : State) (e : Failure) (off : Nat) : (s.raise e off).mb = s.mb := rfl
@[simp] theorem State.raise_first (s : State) (e : Failure) (off : Nat) : (s.raise e off).first = s.first := rfl
@[simp] theorem State.raise_seenSi (s : State) (e : Failure) (off : Nat) : (s.raise e off).seenSi = s.seenSi := rfl
@[simp] theorem State.raise_si (s : State) (e : Failure) (off : Nat) : (s.raise e off).si = s.si := rfl
@[simp] theorem State.raise_fh (s : State) (e : Failure) (off : Nat) : (s.raise e off).fh = s.fh := rfl
@[simp] theorem State.raise_ch (s : State) (e : Failure) (off : Nat) : (s.raise e off).ch = s.ch := rfl
@[simp] theorem State.raise_sf (s : State) (e : Failure) (off : Nat) : (s.raise e off).sf = s.sf := rfl
@[simp] theorem State.raise_fr (s : State) (e : Failure) (off : Nat) : (s.raise e off).fr = s.fr := rfl
@[simp] theorem State.raise_out (s : State) (e : Failure) (off : Nat) :
    (s.raise e off).out = s.out ++ [.error e.code off] := rfl
@[simp] theorem State.raise_mem (s : State) (e : Failure) (off : Nat) : (s.raise e off).mem = s.mem := rfl
@[simp] theorem State.raise_len (s : State) (e : Failure) (off : Nat) : (s.raise e off).len = s.len := rfl
@[simp] theorem State.raise_params (s : State) (e : Failure) (off : Nat) : (s.raise e off).params = s.params := rfl
@[simp] theorem State.raise_host (s : State) (e : Failure) (off : Nat) : (s.raise e off).host = s.host := rfl
@[simp] theorem State.raise_elem (s : State) (e : Failure) (off : Nat) : (s.raise e off).elem = .rest := rfl
@[simp] theorem State.raise_idxAcc (s : State) (e : Failure) (off : Nat) : (s.raise e off).idxAcc = s.idxAcc := rfl
@[simp] theorem State.raise_idxLeft (s : State) (e : Failure) (off : Nat) : (s.raise e off).idxLeft = s.idxLeft := rfl
@[simp] theorem State.raise_idxLen (s : State) (e : Failure) (off : Nat) : (s.raise e off).idxLen = s.idxLen := rfl

/-! ## `State.report` -/

@[simp] theorem State.report_cur (s : State) (e : Failure) (off : Nat) : (s.report e off).cur = s.cur := rfl
@[simp] theorem State.report_phase (s : State) (e : Failure) (off : Nat) : (s.report e off).phase = s.phase := rfl
@[simp] theorem State.report_lenient (s : State) (e : Failure) (off : Nat) : (s.report e off).lenient = s.lenient := rfl
@[simp] theorem State.report_policy (s : State) (e : Failure) (off : Nat) : (s.report e off).policy = s.policy := rfl
@[simp] theorem State.report_err (s : State) (e : Failure) (off : Nat) : (s.report e off).err = s.err := rfl
@[simp] theorem State.report_errOff (s : State) (e : Failure) (off : Nat) : (s.report e off).errOff = s.errOff := rfl
@[simp] theorem State.report_siValid (s : State) (e : Failure) (off : Nat) : (s.report e off).siValid = s.siValid := rfl
@[simp] theorem State.report_mb (s : State) (e : Failure) (off : Nat) : (s.report e off).mb = s.mb := rfl
@[simp] theorem State.report_first (s : State) (e : Failure) (off : Nat) : (s.report e off).first = s.first := rfl
@[simp] theorem State.report_seenSi (s : State) (e : Failure) (off : Nat) : (s.report e off).seenSi = s.seenSi := rfl
@[simp] theorem State.report_si (s : State) (e : Failure) (off : Nat) : (s.report e off).si = s.si := rfl
@[simp] theorem State.report_fh (s : State) (e : Failure) (off : Nat) : (s.report e off).fh = s.fh := rfl
@[simp] theorem State.report_ch (s : State) (e : Failure) (off : Nat) : (s.report e off).ch = s.ch := rfl
@[simp] theorem State.report_sf (s : State) (e : Failure) (off : Nat) : (s.report e off).sf = s.sf := rfl
@[simp] theorem State.report_fr (s : State) (e : Failure) (off : Nat) : (s.report e off).fr = s.fr := rfl
@[simp] theorem State.report_out (s : State) (e : Failure) (off : Nat) :
    (s.report e off).out = s.out ++ [.report e.code off] := rfl
@[simp] theorem State.report_mem (s : State) (e : Failure) (off : Nat) : (s.report e off).mem = s.mem := rfl
@[simp] theorem State.report_len (s : State) (e : Failure) (off : Nat) : (s.report e off).len = s.len := rfl
@[simp] theorem State.report_params (s : State) (e : Failure) (off : Nat) : (s.report e off).params = s.params := rfl
@[simp] theorem State.report_host (s : State) (e : Failure) (off : Nat) : (s.report e off).host = s.host := rfl
@[simp] theorem State.report_elem (s : State) (e : Failure) (off : Nat) : (s.report e off).elem = s.elem := rfl
@[simp] theorem State.report_idxAcc (s : State) (e : Failure) (off : Nat) : (s.report e off).idxAcc = s.idxAcc := rfl
@[simp] theorem State.report_idxLeft (s : State) (e : Failure) (off : Nat) : (s.report e off).idxLeft = s.idxLeft := rfl
@[simp] theorem State.report_idxLen (s : State) (e : Failure) (off : Nat) : (s.report e off).idxLen = s.idxLen := rfl

/-! ## `State.alignToByte` -/

@[simp] theorem State.alignToByte_cur (s : State) : (s.alignToByte).cur = (s.cur + 7) / 8 * 8 := rfl
@[simp] theorem State.alignToByte_phase (s : State) : (s.alignToByte).phase = s.phase := rfl
@[simp] theorem State.alignToByte_lenient (s : State) : (s.alignToByte).lenient = s.lenient := rfl
@[simp] theorem State.alignToByte_policy (s : State) : (s.alignToByte).policy = s.policy := rfl
@[simp] theorem State.alignToByte_err (s : State) : (s.alignToByte).err = s.err := rfl
@[simp] theorem State.alignToByte_errOff (s : State) : (s.alignToByte).errOff = s.errOff := rfl
@[simp] theorem State.alignToByte_siValid (s : State) : (s.alignToByte).siValid = s.siValid := rfl
@[simp] theorem State.alignToByte_mb (s : State) : (s.alignToByte).mb = s.mb := rfl
@[simp] theorem State.alignToByte_first (s : State) : (s.alignToByte).first = s.first := rfl
@[simp] theorem State.alignToByte_seenSi (s : State) : (s.alignToByte).seenSi = s.seenSi := rfl
@[simp] theorem State.alignToByte_si (s : State) : (s.alignToByte).si = s.si := rfl
@[simp] theorem State.alignToByte_fh (s : State) : (s.alignToByte).fh = s.fh := rfl
@[simp] theorem State.alignToByte_ch (s : State) : (s.alignToByte).ch = s.ch := rfl
@[simp] theorem State.alignToByte_sf (s : State) : (s.alignToByte).sf = s.sf := rfl
@[simp] theorem State.alignToByte_fr (s : State) : (s.alignToByte).fr = s.fr := rfl
@[simp] theorem State.alignToByte_out (s : State) : (s.alignToByte).out = s.out := rfl
@[simp] theorem State.alignToByte_mem (s : State) : (s.alignToByte).mem = s.mem := rfl
@[simp] theorem State.alignToByte_len (s : State) : (s.alignToByte).len = s.len := rfl
@[simp] theorem State.alignToByte_params (s : State) : (s.alignToByte).params = s.params := rfl
@[simp] theorem State.alignToByte_host (s : State) : (s.alignToByte).host = s.host := rfl
@[simp] theorem State.alignToByte_elem (s : State) : (s.alignToByte).elem = s.elem := rfl
@[simp] theorem State.alignToByte_idxAcc (s : State) : (s.alignToByte).idxAcc = s.idxAcc := rfl
@[simp] theorem State.alignToByte_idxLeft (s : State) : (s.alignToByte).idxLeft = s.idxLeft := rfl
@[simp] theorem State.alignToByte_idxLen (s : State) : (s.alignToByte).idxLen = s.idxLen := rfl

/-! ## `State.setSubframe` -/

@[simp] theorem State.setSubframe_cur (s : State) (f : Subframe) : (s.setSubframe f).cur = s.cur := rfl
@[simp] theorem State.setSubframe_phase (s : State) (f : Subframe) : (s.setSubframe f).phase = s.phase := rfl
@[simp] theorem State.setSubframe_lenient (s : State) (f : Subframe) : (s.setSubframe f).lenient = s.lenient := rfl
@[simp] theorem State.setSubframe_policy (s : State) (f : Subframe) : (s.setSubframe f).policy = s.policy := rfl
@[simp] theorem State.setSubframe_err (s : State) (f : Subframe) : (s.setSubframe f).err = s.err := rfl
@[simp] theorem State.setSubframe_errOff (s : State) (f : Subframe) : (s.setSubframe f).errOff = s.errOff := rfl
@[simp] theorem State.setSubframe_siValid (s : State) (f : Subframe) : (s.setSubframe f).siValid = s.siValid := rfl
@[simp] theorem State.setSubframe_mb (s : State) (f : Subframe) : (s.setSubframe f).mb = s.mb := rfl
@[simp] theorem State.setSubframe_first (s : State) (f : Subframe) : (s.setSubframe f).first = s.first := rfl
@[simp] theorem State.setSubframe_seenSi (s : State) (f : Subframe) : (s.setSubframe f).seenSi = s.seenSi := rfl
@[simp] theorem State.setSubframe_si (s : State) (f : Subframe) : (s.setSubframe f).si = s.si := rfl
@[simp] theorem State.setSubframe_fh (s : State) (f : Subframe) : (s.setSubframe f).fh = s.fh := rfl
@[simp] theorem State.setSubframe_ch (s : State) (f : Subframe) : (s.setSubframe f).ch = s.ch := rfl
@[simp] theorem State.setSubframe_sf (s : State) (f : Subframe) :
    (s.setSubframe f).sf = s.sf.setIfInBounds s.ch.toNat f := rfl
@[simp] theorem State.setSubframe_fr (s : State) (f : Subframe) : (s.setSubframe f).fr = s.fr := rfl
@[simp] theorem State.setSubframe_out (s : State) (f : Subframe) : (s.setSubframe f).out = s.out := rfl
@[simp] theorem State.setSubframe_mem (s : State) (f : Subframe) : (s.setSubframe f).mem = s.mem := rfl
@[simp] theorem State.setSubframe_len (s : State) (f : Subframe) : (s.setSubframe f).len = s.len := rfl
@[simp] theorem State.setSubframe_params (s : State) (f : Subframe) : (s.setSubframe f).params = s.params := rfl
@[simp] theorem State.setSubframe_host (s : State) (f : Subframe) : (s.setSubframe f).host = s.host := rfl
@[simp] theorem State.setSubframe_elem (s : State) (f : Subframe) : (s.setSubframe f).elem = s.elem := rfl
@[simp] theorem State.setSubframe_idxAcc (s : State) (f : Subframe) : (s.setSubframe f).idxAcc = s.idxAcc := rfl
@[simp] theorem State.setSubframe_idxLeft (s : State) (f : Subframe) : (s.setSubframe f).idxLeft = s.idxLeft := rfl
@[simp] theorem State.setSubframe_idxLen (s : State) (f : Subframe) : (s.setSubframe f).idxLen = s.idxLen := rfl

/-! ## `State.setMb` -/

@[simp] theorem State.setMb_cur (s : State) (mb : MetaBlock) : (s.setMb mb).cur = s.cur := rfl
@[simp] theorem State.setMb_phase (s : State) (mb : MetaBlock) : (s.setMb mb).phase = s.phase := rfl
@[simp] theorem State.setMb_lenient (s : State) (mb : MetaBlock) : (s.setMb mb).lenient = s.lenient := rfl
@[simp] theorem State.setMb_policy (s : State) (mb : MetaBlock) : (s.setMb mb).policy = s.policy := rfl
@[simp] theorem State.setMb_err (s : State) (mb : MetaBlock) : (s.setMb mb).err = s.err := rfl
@[simp] theorem State.setMb_errOff (s : State) (mb : MetaBlock) : (s.setMb mb).errOff = s.errOff := rfl
@[simp] theorem State.setMb_siValid (s : State) (mb : MetaBlock) : (s.setMb mb).siValid = s.siValid := rfl
@[simp] theorem State.setMb_mb (s : State) (mb : MetaBlock) : (s.setMb mb).mb = mb := rfl
@[simp] theorem State.setMb_first (s : State) (mb : MetaBlock) : (s.setMb mb).first = s.first := rfl
@[simp] theorem State.setMb_seenSi (s : State) (mb : MetaBlock) : (s.setMb mb).seenSi = s.seenSi := rfl
@[simp] theorem State.setMb_si (s : State) (mb : MetaBlock) : (s.setMb mb).si = s.si := rfl
@[simp] theorem State.setMb_fh (s : State) (mb : MetaBlock) : (s.setMb mb).fh = s.fh := rfl
@[simp] theorem State.setMb_ch (s : State) (mb : MetaBlock) : (s.setMb mb).ch = s.ch := rfl
@[simp] theorem State.setMb_sf (s : State) (mb : MetaBlock) : (s.setMb mb).sf = s.sf := rfl
@[simp] theorem State.setMb_fr (s : State) (mb : MetaBlock) : (s.setMb mb).fr = s.fr := rfl
@[simp] theorem State.setMb_out (s : State) (mb : MetaBlock) : (s.setMb mb).out = s.out := rfl
@[simp] theorem State.setMb_mem (s : State) (mb : MetaBlock) : (s.setMb mb).mem = s.mem := rfl
@[simp] theorem State.setMb_len (s : State) (mb : MetaBlock) : (s.setMb mb).len = s.len := rfl
@[simp] theorem State.setMb_params (s : State) (mb : MetaBlock) : (s.setMb mb).params = s.params := rfl
@[simp] theorem State.setMb_host (s : State) (mb : MetaBlock) : (s.setMb mb).host = s.host := rfl
@[simp] theorem State.setMb_elem (s : State) (mb : MetaBlock) : (s.setMb mb).elem = s.elem := rfl
@[simp] theorem State.setMb_idxAcc (s : State) (mb : MetaBlock) : (s.setMb mb).idxAcc = s.idxAcc := rfl
@[simp] theorem State.setMb_idxLeft (s : State) (mb : MetaBlock) : (s.setMb mb).idxLeft = s.idxLeft := rfl
@[simp] theorem State.setMb_idxLen (s : State) (mb : MetaBlock) : (s.setMb mb).idxLen = s.idxLen := rfl

/-! ## `State.setSi` -/

@[simp] theorem State.setSi_cur (s : State) (si : StreamInfo) : (s.setSi si).cur = s.cur := rfl
@[simp] theorem State.setSi_phase (s : State) (si : StreamInfo) : (s.setSi si).phase = s.phase := rfl
@[simp] theorem State.setSi_lenient (s : State) (si : StreamInfo) : (s.setSi si).lenient = s.lenient := rfl
@[simp] theorem State.setSi_policy (s : State) (si : StreamInfo) : (s.setSi si).policy = s.policy := rfl
@[simp] theorem State.setSi_err (s : State) (si : StreamInfo) : (s.setSi si).err = s.err := rfl
@[simp] theorem State.setSi_errOff (s : State) (si : StreamInfo) : (s.setSi si).errOff = s.errOff := rfl
@[simp] theorem State.setSi_siValid (s : State) (si : StreamInfo) : (s.setSi si).siValid = s.siValid := rfl
@[simp] theorem State.setSi_mb (s : State) (si : StreamInfo) : (s.setSi si).mb = s.mb := rfl
@[simp] theorem State.setSi_first (s : State) (si : StreamInfo) : (s.setSi si).first = s.first := rfl
@[simp] theorem State.setSi_seenSi (s : State) (si : StreamInfo) : (s.setSi si).seenSi = s.seenSi := rfl
@[simp] theorem State.setSi_si (s : State) (si : StreamInfo) : (s.setSi si).si = si := rfl
@[simp] theorem State.setSi_fh (s : State) (si : StreamInfo) : (s.setSi si).fh = s.fh := rfl
@[simp] theorem State.setSi_ch (s : State) (si : StreamInfo) : (s.setSi si).ch = s.ch := rfl
@[simp] theorem State.setSi_sf (s : State) (si : StreamInfo) : (s.setSi si).sf = s.sf := rfl
@[simp] theorem State.setSi_fr (s : State) (si : StreamInfo) : (s.setSi si).fr = s.fr := rfl
@[simp] theorem State.setSi_out (s : State) (si : StreamInfo) : (s.setSi si).out = s.out := rfl
@[simp] theorem State.setSi_mem (s : State) (si : StreamInfo) : (s.setSi si).mem = s.mem := rfl
@[simp] theorem State.setSi_len (s : State) (si : StreamInfo) : (s.setSi si).len = s.len := rfl
@[simp] theorem State.setSi_params (s : State) (si : StreamInfo) : (s.setSi si).params = s.params := rfl
@[simp] theorem State.setSi_host (s : State) (si : StreamInfo) : (s.setSi si).host = s.host := rfl
@[simp] theorem State.setSi_elem (s : State) (si : StreamInfo) : (s.setSi si).elem = s.elem := rfl
@[simp] theorem State.setSi_idxAcc (s : State) (si : StreamInfo) : (s.setSi si).idxAcc = s.idxAcc := rfl
@[simp] theorem State.setSi_idxLeft (s : State) (si : StreamInfo) : (s.setSi si).idxLeft = s.idxLeft := rfl
@[simp] theorem State.setSi_idxLen (s : State) (si : StreamInfo) : (s.setSi si).idxLen = s.idxLen := rfl

/-! ## `State.setFh` -/

@[simp] theorem State.setFh_cur (s : State) (fh : FrameHeader) : (s.setFh fh).cur = s.cur := rfl
@[simp] theorem State.setFh_phase (s : State) (fh : FrameHeader) : (s.setFh fh).phase = s.phase := rfl
@[simp] theorem State.setFh_lenient (s : State) (fh : FrameHeader) : (s.setFh fh).lenient = s.lenient := rfl
@[simp] theorem State.setFh_policy (s : State) (fh : FrameHeader) : (s.setFh fh).policy = s.policy := rfl
@[simp] theorem State.setFh_err (s : State) (fh : FrameHeader) : (s.setFh fh).err = s.err := rfl
@[simp] theorem State.setFh_errOff (s : State) (fh : FrameHeader) : (s.setFh fh).errOff = s.errOff := rfl
@[simp] theorem State.setFh_siValid (s : State) (fh : FrameHeader) : (s.setFh fh).siValid = s.siValid := rfl
@[simp] theorem State.setFh_mb (s : State) (fh : FrameHeader) : (s.setFh fh).mb = s.mb := rfl
@[simp] theorem State.setFh_first (s : State) (fh : FrameHeader) : (s.setFh fh).first = s.first := rfl
@[simp] theorem State.setFh_seenSi (s : State) (fh : FrameHeader) : (s.setFh fh).seenSi = s.seenSi := rfl
@[simp] theorem State.setFh_si (s : State) (fh : FrameHeader) : (s.setFh fh).si = s.si := rfl
@[simp] theorem State.setFh_fh (s : State) (fh : FrameHeader) : (s.setFh fh).fh = fh := rfl
@[simp] theorem State.setFh_ch (s : State) (fh : FrameHeader) : (s.setFh fh).ch = s.ch := rfl
@[simp] theorem State.setFh_sf (s : State) (fh : FrameHeader) : (s.setFh fh).sf = s.sf := rfl
@[simp] theorem State.setFh_fr (s : State) (fh : FrameHeader) : (s.setFh fh).fr = s.fr := rfl
@[simp] theorem State.setFh_out (s : State) (fh : FrameHeader) : (s.setFh fh).out = s.out := rfl
@[simp] theorem State.setFh_mem (s : State) (fh : FrameHeader) : (s.setFh fh).mem = s.mem := rfl
@[simp] theorem State.setFh_len (s : State) (fh : FrameHeader) : (s.setFh fh).len = s.len := rfl
@[simp] theorem State.setFh_params (s : State) (fh : FrameHeader) : (s.setFh fh).params = s.params := rfl
@[simp] theorem State.setFh_host (s : State) (fh : FrameHeader) : (s.setFh fh).host = s.host := rfl
@[simp] theorem State.setFh_elem (s : State) (fh : FrameHeader) : (s.setFh fh).elem = s.elem := rfl
@[simp] theorem State.setFh_idxAcc (s : State) (fh : FrameHeader) : (s.setFh fh).idxAcc = s.idxAcc := rfl
@[simp] theorem State.setFh_idxLeft (s : State) (fh : FrameHeader) : (s.setFh fh).idxLeft = s.idxLeft := rfl
@[simp] theorem State.setFh_idxLen (s : State) (fh : FrameHeader) : (s.setFh fh).idxLen = s.idxLen := rfl

/-! ## `State.popHost` -/

@[simp] theorem State.popHost_cur (s : State) : (s.popHost).cur = s.cur := rfl
@[simp] theorem State.popHost_phase (s : State) : (s.popHost).phase = s.phase := rfl
@[simp] theorem State.popHost_lenient (s : State) : (s.popHost).lenient = s.lenient := rfl
@[simp] theorem State.popHost_policy (s : State) : (s.popHost).policy = s.policy := rfl
@[simp] theorem State.popHost_err (s : State) : (s.popHost).err = s.err := rfl
@[simp] theorem State.popHost_errOff (s : State) : (s.popHost).errOff = s.errOff := rfl
@[simp] theorem State.popHost_siValid (s : State) : (s.popHost).siValid = s.siValid := rfl
@[simp] theorem State.popHost_mb (s : State) : (s.popHost).mb = s.mb := rfl
@[simp] theorem State.popHost_first (s : State) : (s.popHost).first = s.first := rfl
@[simp] theorem State.popHost_seenSi (s : State) : (s.popHost).seenSi = s.seenSi := rfl
@[simp] theorem State.popHost_si (s : State) : (s.popHost).si = s.si := rfl
@[simp] theorem State.popHost_fh (s : State) : (s.popHost).fh = s.fh := rfl
@[simp] theorem State.popHost_ch (s : State) : (s.popHost).ch = s.ch := rfl
@[simp] theorem State.popHost_sf (s : State) : (s.popHost).sf = s.sf := rfl
@[simp] theorem State.popHost_fr (s : State) : (s.popHost).fr = s.fr := rfl
@[simp] theorem State.popHost_out (s : State) : (s.popHost).out = s.out := rfl
@[simp] theorem State.popHost_mem (s : State) : (s.popHost).mem = s.mem := rfl
@[simp] theorem State.popHost_len (s : State) : (s.popHost).len = s.len := rfl
@[simp] theorem State.popHost_params (s : State) : (s.popHost).params = s.params := rfl
@[simp] theorem State.popHost_host (s : State) : (s.popHost).host = s.host.tail := rfl
@[simp] theorem State.popHost_elem (s : State) : (s.popHost).elem = s.elem := rfl
@[simp] theorem State.popHost_idxAcc (s : State) : (s.popHost).idxAcc = s.idxAcc := rfl
@[simp] theorem State.popHost_idxLeft (s : State) : (s.popHost).idxLeft = s.idxLeft := rfl
@[simp] theorem State.popHost_idxLen (s : State) : (s.popHost).idxLen = s.idxLen := rfl

/-! ## `State.toReset` -/

@[simp] theorem State.toReset_cur (s : State) : (s.toReset).cur = 0 := rfl
@[simp] theorem State.toReset_phase (s : State) : (s.toReset).phase = .idle := rfl
@[simp] theorem State.toReset_lenient (s : State) : (s.toReset).lenient = false := rfl
@[simp] theorem State.toReset_policy (s : State) : (s.toReset).policy = false := rfl
@[simp] theorem State.toReset_err (s : State) : (s.toReset).err = 0 := rfl
@[simp] theorem State.toReset_errOff (s : State) : (s.toReset).errOff = 0 := rfl
@[simp] theorem State.toReset_siValid (s : State) : (s.toReset).siValid = false := rfl
@[simp] theorem State.toReset_mb (s : State) : (s.toReset).mb = MetaBlock.reset := rfl
@[simp] theorem State.toReset_first (s : State) : (s.toReset).first = true := rfl
@[simp] theorem State.toReset_seenSi (s : State) : (s.toReset).seenSi = 0 := rfl
@[simp] theorem State.toReset_si (s : State) : (s.toReset).si = StreamInfo.reset := rfl
@[simp] theorem State.toReset_fh (s : State) : (s.toReset).fh = FrameHeader.reset := rfl
@[simp] theorem State.toReset_ch (s : State) : (s.toReset).ch = 0 := rfl
@[simp] theorem State.toReset_sf (s : State) : (s.toReset).sf = Vector.replicate 8 Subframe.reset := rfl
@[simp] theorem State.toReset_fr (s : State) : (s.toReset).fr = Footer.reset := rfl
@[simp] theorem State.toReset_out (s : State) : (s.toReset).out = [] := rfl
@[simp] theorem State.toReset_mem (s : State) : (s.toReset).mem = s.mem := rfl
@[simp] theorem State.toReset_len (s : State) : (s.toReset).len = s.len := rfl
@[simp] theorem State.toReset_params (s : State) : (s.toReset).params = s.params := rfl
@[simp] theorem State.toReset_host (s : State) : (s.toReset).host = s.host := rfl
@[simp] theorem State.toReset_elem (s : State) : (s.toReset).elem = .rest := rfl
@[simp] theorem State.toReset_idxAcc (s : State) : (s.toReset).idxAcc = 0 := rfl
@[simp] theorem State.toReset_idxLeft (s : State) : (s.toReset).idxLeft = 0 := rfl
@[simp] theorem State.toReset_idxLen (s : State) : (s.toReset).idxLen = 0 := rfl

end Sys2Proof.Machine
end

