-- ==== Sys2Proof/Laws/Ops.lean ====
section
/-! SUPPORT. For each shared operation, once, everything it can answer. An equation says what it does where its
condition is known; a lemma `…_elim` says that a property of results holds of the operation's result when it
holds in each of its cases. -/

namespace Sys2Proof.Machine

variable {P : Res → Prop} {s : State} {k : State → Res} {n : Nat}

/-! ## The BitReader -/

theorem State.rem_advance (s : State) (n : Nat) : (s.advance n).rem = s.rem - n := by
  simp only [State.rem, State.advance]; omega

theorem State.rem_setMb (s : State) (mb : MetaBlock) : (s.setMb mb).rem = s.rem := rfl

theorem State.rem_setSi (s : State) (si : StreamInfo) : (s.setSi si).rem = s.rem := rfl

theorem State.rem_setFh (s : State) (fh : FrameHeader) : (s.setFh fh).rem = s.rem := rfl

theorem State.rem_setSubframe (s : State) (f : Subframe) : (s.setSubframe f).rem = s.rem := rfl

theorem State.off_advance (s : State) (n : Nat) : (s.advance n).off = (s.cur + n) / 8 := rfl

theorem State.advance_advance (s : State) (m n : Nat) : (s.advance m).advance n = s.advance (m + n) := by
  simp only [State.advance, Nat.add_assoc]

theorem State.setMb_advance (s : State) (mb : MetaBlock) (n : Nat) :
    (s.setMb mb).advance n = (s.advance n).setMb mb := rfl

theorem State.setSi_advance (s : State) (si : StreamInfo) (n : Nat) :
    (s.setSi si).advance n = (s.advance n).setSi si := rfl

theorem State.setFh_advance (s : State) (fh : FrameHeader) (n : Nat) :
    (s.setFh fh).advance n = (s.advance n).setFh fh := rfl

theorem State.setMb_setMb (s : State) (a b : MetaBlock) : (s.setMb a).setMb b = s.setMb b := rfl

theorem State.setSi_setSi (s : State) (a b : StreamInfo) : (s.setSi a).setSi b = s.setSi b := rfl

theorem State.setFh_setFh (s : State) (a b : FrameHeader) : (s.setFh a).setFh b = s.setFh b := rfl

theorem consume_of_le (h : n ≤ s.rem) : consume n s k = k (s.advance n) := by
  rw [consume, if_neg (by omega)]

theorem consume_of_lt (h : s.rem < n) : consume n s k = fail s .outOfData s.off := by rw [consume, if_pos h]

theorem consume_elim (hfail : s.rem < n → P (fail s .outOfData s.off)) (hgo : n ≤ s.rem → P (k (s.advance n))) :
    P (consume n s k) := by
  rcases Nat.lt_or_ge s.rem n with h | h
  · rw [consume_of_lt h]; exact hfail h
  · rw [consume_of_le h]; exact hgo h

theorem readBits_eq_consume (h1 : 1 ≤ n) (h36 : n ≤ 36) : readBits n s k = consume n s k := by
  rw [readBits, if_neg]; simp only [Config.nMax]; omega

theorem readBits_of_le (h1 : 1 ≤ n) (h36 : n ≤ 36) (h : n ≤ s.rem) : readBits n s k = k (s.advance n) := by
  rw [readBits_eq_consume h1 h36, consume_of_le h]

theorem readBits_of_lt (h1 : 1 ≤ n) (h36 : n ≤ 36) (h : s.rem < n) :
    readBits n s k = fail s .outOfData s.off := by
  rw [readBits_eq_consume h1 h36, consume_of_lt h]

theorem readBits_of_width (h : n = 0 ∨ 36 < n) : readBits n s k = .refused (.readBitsWidth n) := if_pos h

theorem readBits_elim (h1 : 1 ≤ n) (h36 : n ≤ 36) (hfail : s.rem < n → P (fail s .outOfData s.off))
    (hgo : n ≤ s.rem → P (k (s.advance n))) : P (readBits n s k) := by
  rw [readBits_eq_consume h1 h36]; exact consume_elim hfail hgo

theorem readBytes_of_le {m : Nat} (h : 8 * m ≤ s.rem) : readBytes m s k = k (s.advance (8 * m)) := by
  induction m generalizing s with
  | zero => rfl
  | succ m ih =>
    rw [readBytes, readBits_of_le (by omega) (by omega) (by omega), ih (by rw [State.rem_advance]; omega),
      State.advance_advance, show 8 + 8 * m = 8 * (m + 1) by omega]

theorem readBytes_of_lt {m i : Nat} (hi : i < m) (h : 8 * i ≤ s.rem) (h' : s.rem < 8 * (i + 1)) :
    readBytes m s k = fail (s.advance (8 * i)) .outOfData (s.off + i) := by
  induction m generalizing s i with
  | zero => omega
  | succ m ih =>
    rw [readBytes]
    cases i with
    | zero => rw [readBits_of_lt (by omega) (by omega) (by omega)]; rfl
    | succ i =>
      rw [readBits_of_le (by omega) (by omega) (by omega),
        ih (i := i) (by omega) (by rw [State.rem_advance]; omega) (by rw [State.rem_advance]; omega),
        State.advance_advance, show 8 + 8 * i = 8 * (i + 1) by omega]
      congr 1
      simp only [State.off, State.advance]; omega

theorem readBytes_elim {m : Nat}
    (hfail : ∀ i, i < m → 8 * i ≤ s.rem → s.rem < 8 * (i + 1) →
      P (fail (s.advance (8 * i)) .outOfData (s.off + i)))
    (hgo : 8 * m ≤ s.rem → P (k (s.advance (8 * m)))) : P (readBytes m s k) := by
  rcases Nat.lt_or_ge s.rem (8 * m) with h | h
  · have hi : s.rem / 8 < m := by omega
    rw [readBytes_of_lt hi (by omega) (by omega)]
    exact hfail _ hi (by omega) (by omega)
  · rw [readBytes_of_le h]; exact hgo h

theorem readUnary0_elim (hfail : s.rem < n → P (fail s .outOfData s.off))
    (hgo : n ≤ s.rem → P (k (s.advance n))) : P (readUnary0 n s k) := consume_elim hfail hgo

theorem skipBytes_elim (hfail : s.rem < 8 * n → P (fail s .outOfData s.off))
    (hgo : 8 * n ≤ s.rem → P (k (s.advance (8 * n)))) : P (skipBytes n s k) := consume_elim hfail hgo

/-! ## Checksums and the subframe file -/

theorem checkVerdict_elim {ok : Bool} {e : Failure} {off : Nat} (hok : ok = true → P (k s))
    (hstrict : ok = false → s.policy = false → P (fail s e off))
    (hlenient : ok = false → s.policy = true → P (k (s.report e off))) : P (checkVerdict ok e off s k) := by
  unfold checkVerdict
  cases ok with
  | true => exact hok rfl
  | false =>
    cases h : s.policy with
    | false => simpa [h] using hstrict rfl h
    | true => simpa [h] using hlenient rfl h

theorem withSubframe_of_lt {k : Subframe → Res} (h : s.ch.toNat < 8) :
    withSubframe s k = k (s.sf[s.ch.toNat]'h) := by
  unfold withSubframe; rw [Vector.getElem?_eq_getElem h]

theorem withSubframe_of_ge {k : Subframe → Res} (h : 8 ≤ s.ch.toNat) :
    withSubframe s k = .fault (.noSubframe s.ch) := by
  unfold withSubframe; rw [Vector.getElem?_eq_none h]

theorem withSubframe_elim {k : Subframe → Res}
    (hfault : 8 ≤ s.ch.toNat → P (.fault (.noSubframe s.ch)))
    (hgo : ∀ f, s.sf[s.ch.toNat]? = some f → s.ch.toNat < 8 → P (k f)) : P (withSubframe s k) := by
  rcases Nat.lt_or_ge s.ch.toNat 8 with h | h
  · rw [withSubframe_of_lt h]; exact hgo _ (Vector.getElem?_eq_getElem h) h
  · rw [withSubframe_of_ge h]; exact hfault h

theorem State.setSubframe_setSubframe (s : State) (f g : Subframe) :
    (s.setSubframe f).setSubframe g = s.setSubframe g := by
  simp only [State.setSubframe]
  congr 1
  apply Vector.ext
  intro i hi
  simp only [Vector.getElem_setIfInBounds]
  split <;> rfl

theorem State.getElem_setSubframe (s : State) (f : Subframe) (h : s.ch.toNat < 8) :
    (s.setSubframe f).sf[s.ch.toNat]? = some f := by
  simp [State.setSubframe, h]

/-! ## The metadata chain -/

theorem endOfChain_elim (hbad : s.seenSi ≠ 1 → P (fail s .missingStreamInfo s.off))
    (hgo : s.seenSi = 1 →
      P (.next { s with siValid := true, out := s.out ++ [.streamInfo s.si], phase := .frame, elem := .rest })) :
    P (endOfChain s) := by
  unfold endOfChain; split
  · exact hbad ‹_›
  · exact hgo (Classical.not_not.1 ‹_›)

theorem endOfBlock_elim (hmore : s.mb.isLast = false → P (.next { s with elem := .mbh }))
    (hbad : s.mb.isLast = true → s.seenSi ≠ 1 → P (fail s .missingStreamInfo s.off))
    (hgo : s.mb.isLast = true → s.seenSi = 1 →
      P (.next { s with siValid := true, out := s.out ++ [.streamInfo s.si], phase := .frame, elem := .rest })) :
    P (endOfBlock s) := by
  unfold endOfBlock
  cases h : s.mb.isLast with
  | false => exact hmore h
  | true => exact endOfChain_elim (hbad h) (hgo h)

theorem endOfBlock_of_more (h : s.mb.isLast = false) : endOfBlock s = .next { s with elem := .mbh } := by
  simp only [endOfBlock, h]; rfl

theorem endOfBlock_of_one (h : s.mb.isLast = true) (h1 : s.seenSi = 1) :
    endOfBlock s =
      .next { s with siValid := true, out := s.out ++ [.streamInfo s.si], phase := .frame, elem := .rest } := by
  rw [endOfBlock, if_pos h, endOfChain, if_neg (not_not_intro h1)]

theorem endOfBlock_of_bad (h : s.mb.isLast = true) (h1 : s.seenSi ≠ 1) :
    endOfBlock s = fail s .missingStreamInfo s.off := by
  rw [endOfBlock, if_pos h, endOfChain, if_pos h1]

/-- A header whose type has been read and not refused: the length is read next. -/
theorem blockHeader_of_type {l : Bool} {t : BitVec 7} {n : BitVec 24} (h : 8 ≤ s.rem)
    (hf : ¬(s.first = true ∧ t ≠ s.params.tStreamInfo)) :
    blockHeader l t n s =
      readBits 24 { (s.advance 8).setMb { s.mb with isLast := l, blockType := t } with first := false } fun u =>
        if t ≠ s.params.tStreamInfo then .next ((u.setMb { u.mb with length := n }).goto .mbBody)
        else if n ≠ Config.siLen then fail (u.setMb { u.mb with length := n }) .invalidStreamInfo (s.off + 1)
        else .next ((u.setMb { u.mb with length := n }).goto .siBody) := by
  unfold blockHeader
  dsimp only
  rw [readBits_of_le (by omega) (by omega) (by omega),
    readBits_of_le (by omega) (by omega) (by rw [State.rem_setMb, State.rem_advance]; omega)]
  simp only [State.setMb_advance, State.setMb_setMb, State.advance_advance, State.setMb_mb, State.advance_mb,
    State.setMb_first, State.advance_first]
  rw [if_neg hf]

/-- A block header: a failure somewhere inside it, or its three registers written and the body's element next. -/
theorem blockHeader_elim {isLast : Bool} {blockType : BitVec 7} {length : BitVec 24}
    (hfail : ∀ n mb first e off, n ≤ 32 → n ≤ s.rem →
      (e = .outOfData ∨ e = .missingStreamInfo ∨ e = .invalidStreamInfo) →
      P (fail { s with cur := s.cur + n, mb := mb, first := first } e off))
    (hother : 32 ≤ s.rem → blockType ≠ s.params.tStreamInfo → s.first = false →
      P (.next { s with cur := s.cur + 32, mb := ⟨isLast, blockType, length⟩, first := false, elem := .mbBody }))
    (hsi : 32 ≤ s.rem → blockType = s.params.tStreamInfo → length = Config.siLen →
      P (.next { s with cur := s.cur + 32, mb := ⟨isLast, blockType, length⟩, first := false, elem := .siBody })) :
    P (blockHeader isLast blockType length s) := by
  unfold blockHeader
  dsimp only
  refine readBits_elim (by omega) (by omega)
    (fun _ => hfail 0 s.mb s.first _ _ (by omega) (by omega) (.inl rfl)) fun h1 => ?_
  simp only [State.advance_mb]
  refine readBits_elim (by omega) (by omega)
    (fun _ => hfail 1 _ s.first _ _ (by omega) (by omega) (.inl rfl)) fun h2 => ?_
  have h8 : 8 ≤ s.rem := by simp only [State.rem_setMb, State.rem_advance] at *; omega
  simp only [State.setMb_advance, State.setMb_setMb, State.advance_advance, State.setMb_mb]
  split
  · exact hfail 8 _ s.first _ _ (by omega) h8 (.inr (.inl rfl))
  · rename_i hfirst
    refine readBits_elim (by omega) (by omega)
      (fun _ => hfail 8 _ _ _ _ (by omega) h8 (.inl rfl)) fun h3 => ?_
    have h32 : 32 ≤ s.rem := by simp only [State.rem, State.advance, State.setMb] at *; omega
    split
    · rename_i ht
      exact hother h32 ht (by simpa [ht] using hfirst)
    · rename_i ht
      split
      · exact hfail 32 _ _ _ _ (by omega) h32 (.inr (.inr rfl))
      · exact hsi h32 (Classical.not_not.1 ht) (Classical.not_not.1 ‹_›)

/-- A StreamInfo body: a failure somewhere inside it, or its nine registers written and the end of the block. -/
theorem execSiBody_elim {minBlock maxBlock : BitVec 16} {minFrame maxFrame : BitVec 24} {rate : BitVec 20}
    {channels : BitVec 3} {depth : BitVec 5} {total : BitVec 36} {hash : BitVec 128}
    (hfail : ∀ n si e off, n ≤ 272 → n ≤ s.rem →
      (si.channelCount = s.si.channelCount ∨ si.channelCount = siChannelCount channels) →
      (si.bitsPerSample = s.si.bitsPerSample ∨ si.bitsPerSample = siBitsPerSample depth) →
      (e = .outOfData ∨ e = .invalidStreamInfo) → P (fail ((s.advance n).setSi si) e off))
    (hgo : 272 ≤ s.rem → rate ≠ 0 →
      P (endOfBlock { s with
        cur := s.cur + 272
        si := ⟨minBlock, maxBlock, minFrame, maxFrame, rate, siChannelCount channels, siBitsPerSample depth,
          total, hash⟩
        seenSi := seenNext s.seenSi })) :
    P (execSiBody minBlock maxBlock minFrame maxFrame rate channels depth total hash s) := by
  unfold execSiBody
  dsimp only
  refine readBits_elim (by omega) (by omega)
    (fun _ => hfail 0 s.si _ _ (by omega) (by omega) (.inl rfl) (.inl rfl) (.inl rfl)) fun h16 => ?_
  simp only [State.advance_si]
  refine readBits_elim (by omega) (by omega)
    (fun _ => hfail 16 _ _ _ (by omega) h16 (.inl rfl) (.inl rfl) (.inl rfl)) fun g32 => ?_
  simp only [State.setSi_advance, State.setSi_setSi, State.advance_advance, State.setSi_si]
  have h32 : 32 ≤ s.rem := by simp only [State.rem_setSi, State.rem_advance] at *; omega
  refine readBits_elim (by omega) (by omega)
    (fun _ => hfail 32 _ _ _ (by omega) h32 (.inl rfl) (.inl rfl) (.inl rfl)) fun g56 => ?_
  simp only [State.setSi_advance, State.setSi_setSi, State.advance_advance, State.setSi_si]
  have h56 : 56 ≤ s.rem := by simp only [State.rem_setSi, State.rem_advance] at *; omega
  refine readBits_elim (by omega) (by omega)
    (fun _ => hfail 56 _ _ _ (by omega) h56 (.inl rfl) (.inl rfl) (.inl rfl)) fun g80 => ?_
  simp only [State.setSi_advance, State.setSi_setSi, State.advance_advance, State.setSi_si]
  have h80 : 80 ≤ s.rem := by simp only [State.rem_setSi, State.rem_advance] at *; omega
  refine readBits_elim (by omega) (by omega)
    (fun _ => hfail 80 _ _ _ (by omega) h80 (.inl rfl) (.inl rfl) (.inl rfl)) fun g100 => ?_
  simp only [State.setSi_advance, State.setSi_setSi, State.advance_advance, State.setSi_si]
  have h100 : 100 ≤ s.rem := by simp only [State.rem_setSi, State.rem_advance] at *; omega
  split
  · exact hfail 100 _ _ _ (by omega) h100 (.inl rfl) (.inl rfl) (.inr rfl)
  · rename_i hrate
    refine readBits_elim (by omega) (by omega)
      (fun _ => hfail 100 _ _ _ (by omega) h100 (.inl rfl) (.inl rfl) (.inl rfl)) fun g103 => ?_
    simp only [State.setSi_advance, State.setSi_setSi, State.advance_advance, State.setSi_si]
    have h103 : 103 ≤ s.rem := by simp only [State.rem_setSi, State.rem_advance] at *; omega
    refine readBits_elim (by omega) (by omega)
      (fun _ => hfail 103 _ _ _ (by omega) h103 (.inr rfl) (.inl rfl) (.inl rfl)) fun g108 => ?_
    simp only [State.setSi_advance, State.setSi_setSi, State.advance_advance, State.setSi_si]
    have h108 : 108 ≤ s.rem := by simp only [State.rem_setSi, State.rem_advance] at *; omega
    refine readBits_elim (by omega) (by omega)
      (fun _ => hfail 108 _ _ _ (by omega) h108 (.inr rfl) (.inr rfl) (.inl rfl)) fun g144 => ?_
    simp only [State.setSi_advance, State.setSi_setSi, State.advance_advance, State.setSi_si]
    have h144 : 144 ≤ s.rem := by simp only [State.rem_setSi, State.rem_advance] at *; omega
    refine readBytes_elim
      (fun i hi hle _ => ?_) fun h9 => ?_
    · simp only [State.setSi_advance, State.advance_advance]
      exact hfail (144 + 8 * i) _ _ _ (by omega) (by simp only [State.rem_setSi, State.rem_advance] at *; omega)
        (.inr rfl) (.inr rfl) (.inl rfl)
    · exact hgo (by simp only [State.rem_setSi, State.rem_advance] at *; omega) hrate

/-- A whole StreamInfo body with a nonzero rate. -/
theorem execSiBody_of_le {minBlock maxBlock : BitVec 16} {minFrame maxFrame : BitVec 24} {rate : BitVec 20}
    {channels : BitVec 3} {depth : BitVec 5} {total : BitVec 36} {hash : BitVec 128} (h : 272 ≤ s.rem)
    (hrate : rate ≠ 0) :
    execSiBody minBlock maxBlock minFrame maxFrame rate channels depth total hash s =
      endOfBlock { s with
        cur := s.cur + 272
        si := ⟨minBlock, maxBlock, minFrame, maxFrame, rate, siChannelCount channels, siBitsPerSample depth,
          total, hash⟩
        seenSi := seenNext s.seenSi } := by
  unfold execSiBody
  dsimp only
  rw [readBits_of_le (by omega) (by omega) (by omega)]
  simp only [State.advance_si]
  rw [readBits_of_le (by omega) (by omega) (by simp only [State.rem_setSi, State.rem_advance]; omega)]
  simp only [State.setSi_advance, State.setSi_setSi, State.advance_advance, State.setSi_si]
  rw [readBits_of_le (by omega) (by omega) (by simp only [State.rem_setSi, State.rem_advance]; omega)]
  simp only [State.setSi_advance, State.setSi_setSi, State.advance_advance, State.setSi_si]
  rw [readBits_of_le (by omega) (by omega) (by simp only [State.rem_setSi, State.rem_advance]; omega)]
  simp only [State.setSi_advance, State.setSi_setSi, State.advance_advance, State.setSi_si]
  rw [readBits_of_le (by omega) (by omega) (by simp only [State.rem_setSi, State.rem_advance]; omega)]
  simp only [State.setSi_advance, State.setSi_setSi, State.advance_advance, State.setSi_si]
  rw [if_neg hrate]
  rw [readBits_of_le (by omega) (by omega) (by simp only [State.rem_setSi, State.rem_advance]; omega)]
  simp only [State.setSi_advance, State.setSi_setSi, State.advance_advance, State.setSi_si]
  rw [readBits_of_le (by omega) (by omega) (by simp only [State.rem_setSi, State.rem_advance]; omega)]
  simp only [State.setSi_advance, State.setSi_setSi, State.advance_advance, State.setSi_si]
  rw [readBits_of_le (by omega) (by omega) (by simp only [State.rem_setSi, State.rem_advance]; omega)]
  simp only [State.setSi_advance, State.setSi_setSi, State.advance_advance, State.setSi_si]
  rw [readBytes_of_le (by simp only [State.rem_setSi, State.rem_advance]; omega)]
  rfl

/-! ## The frame header -/

/-- `FH.WORD`: a failure somewhere inside it; or a reserved code, whose row is next; or all five field
registers written and the index next. -/
theorem execFhWord_elim {sync : BitVec 14} {z1 b : Bool} {bsc src cac : BitVec 4} {ssc : BitVec 3} {z2 : Bool}
    (hfail : ∀ n st fixed c1 c2 c3 c4 e off, n ≤ 32 → n ≤ s.rem → (e = .outOfData ∨ e = .frameSyncLost) →
      P (fail { s with
        cur := s.cur + n
        fh := { s.fh with
          start := st, blockingStrategyFixed := fixed, blockSizeCode := c1, sampleRateCode := c2,
          channelAssignmentCode := c3, sampleSizeCode := c4 } } e off))
    (hreserved : ∀ n st fixed c1 c2 c3 c4 e, 20 ≤ n → n ≤ 31 → n ≤ s.rem →
      (e = .bsCode ∧ bsTable s.params c1 = .reserved ∨ e = .srCode ∧ srTable s.params c2 = .reserved ∨
        e = .caCode ∧ caTable s.params c3 = .reserved ∨ e = .ssCode ∧ ssTable s.params c4 = .reserved) →
      P (.next { s with
        cur := s.cur + n
        fh := { s.fh with
          start := st, blockingStrategyFixed := fixed, blockSizeCode := c1, sampleRateCode := c2,
          channelAssignmentCode := c3, sampleSizeCode := c4 }
        elem := e }))
    (hgo : 32 ≤ s.rem → sync = s.params.sync14 → z1 = false → bsTable s.params bsc ≠ .reserved →
      srTable s.params src ≠ .reserved → caTable s.params cac ≠ .reserved → ssTable s.params ssc ≠ .reserved →
      z2 = false →
      P (.next { s with
        cur := s.cur + 32
        fh := { s.fh with
          start := s.off, blockingStrategyFixed := strategyFixed b, blockSizeCode := bsc, sampleRateCode := src,
          channelAssignmentCode := cac, sampleSizeCode := ssc }
        elem := .idx })) :
    P (execFhWord sync z1 b bsc src cac ssc z2 s) := by
  unfold execFhWord
  dsimp only
  have h0 : 0 ≤ s.rem := Nat.zero_le _
  refine readBits_elim (by omega) (by omega)
    (fun _ => hfail 0 _ _ _ _ _ _ _ _ (by omega) h0 (.inl rfl)) fun g14 => ?_
  have h14 : 14 ≤ s.rem := by simp only [State.rem_setFh, State.rem_advance] at *; omega
  simp only [State.setFh_advance, State.setFh_setFh, State.advance_advance, State.setFh_fh, State.advance_fh]
  split
  · exact hfail 14 _ _ _ _ _ _ _ _ (by omega) h14 (.inr rfl)
  rename_i hsync
  refine readBits_elim (by omega) (by omega)
    (fun _ => hfail 14 _ _ _ _ _ _ _ _ (by omega) h14 (.inl rfl)) fun g15 => ?_
  have h15 : 15 ≤ s.rem := by simp only [State.rem_setFh, State.rem_advance] at *; omega
  simp only [State.setFh_advance, State.setFh_setFh, State.advance_advance, State.setFh_fh, State.advance_fh]
  split
  · exact hfail 15 _ _ _ _ _ _ _ _ (by omega) h15 (.inr rfl)
  rename_i hz1
  refine readBits_elim (by omega) (by omega)
    (fun _ => hfail 15 _ _ _ _ _ _ _ _ (by omega) h15 (.inl rfl)) fun g16 => ?_
  have h16 : 16 ≤ s.rem := by simp only [State.rem_setFh, State.rem_advance] at *; omega
  simp only [State.setFh_advance, State.setFh_setFh, State.advance_advance, State.setFh_fh, State.advance_fh]
  refine readBits_elim (by omega) (by omega)
    (fun _ => hfail 16 _ _ _ _ _ _ _ _ (by omega) h16 (.inl rfl)) fun g20 => ?_
  have h20 : 20 ≤ s.rem := by simp only [State.rem_setFh, State.rem_advance] at *; omega
  simp only [State.setFh_advance, State.setFh_setFh, State.advance_advance, State.setFh_fh, State.advance_fh]
  split
  · exact hreserved 20 _ _ _ _ _ _ _ (by omega) (by omega) h20 (.inl ⟨rfl, ‹_›⟩)
  rename_i hbs
  refine readBits_elim (by omega) (by omega)
    (fun _ => hfail 20 _ _ _ _ _ _ _ _ (by omega) h20 (.inl rfl)) fun g24 => ?_
  have h24 : 24 ≤ s.rem := by simp only [State.rem_setFh, State.rem_advance] at *; omega
  simp only [State.setFh_advance, State.setFh_setFh, State.advance_advance, State.setFh_fh, State.advance_fh]
  split
  · exact hreserved 24 _ _ _ _ _ _ _ (by omega) (by omega) h24 (.inr (.inl ⟨rfl, ‹_›⟩))
  rename_i hsr
  refine readBits_elim (by omega) (by omega)
    (fun _ => hfail 24 _ _ _ _ _ _ _ _ (by omega) h24 (.inl rfl)) fun g28 => ?_
  have h28 : 28 ≤ s.rem := by simp only [State.rem_setFh, State.rem_advance] at *; omega
  simp only [State.setFh_advance, State.setFh_setFh, State.advance_advance, State.setFh_fh, State.advance_fh]
  split
  · exact hreserved 28 _ _ _ _ _ _ _ (by omega) (by omega) h28 (.inr (.inr (.inl ⟨rfl, ‹_›⟩)))
  rename_i hca
  refine readBits_elim (by omega) (by omega)
    (fun _ => hfail 28 _ _ _ _ _ _ _ _ (by omega) h28 (.inl rfl)) fun g31 => ?_
  have h31 : 31 ≤ s.rem := by simp only [State.rem_setFh, State.rem_advance] at *; omega
  simp only [State.setFh_advance, State.setFh_setFh, State.advance_advance, State.setFh_fh, State.advance_fh]
  split
  · exact hreserved 31 _ _ _ _ _ _ _ (by omega) (by omega) h31 (.inr (.inr (.inr ⟨rfl, ‹_›⟩)))
  rename_i hss
  refine readBits_elim (by omega) (by omega)
    (fun _ => hfail 31 _ _ _ _ _ _ _ _ (by omega) h31 (.inl rfl)) fun g32 => ?_
  have h32 : 32 ≤ s.rem := by simp only [State.rem_setFh, State.rem_advance] at *; omega
  simp only [State.setFh_advance, State.setFh_setFh, State.advance_advance, State.setFh_fh, State.advance_fh]
  split
  · exact hfail 32 _ _ _ _ _ _ _ _ (by omega) h32 (.inr rfl)
  · rename_i hz2
    exact hgo h32 (Classical.not_not.1 hsync) (by simpa using hz1) hbs hsr hca hss (by simpa using hz2)

/-- A whole fixed word that nothing refuses. -/
theorem execFhWord_of_le {b : Bool} {bsc src cac : BitVec 4} {ssc : BitVec 3} (h : 32 ≤ s.rem)
    (hbs : bsTable s.params bsc ≠ .reserved) (hsr : srTable s.params src ≠ .reserved)
    (hca : caTable s.params cac ≠ .reserved) (hss : ssTable s.params ssc ≠ .reserved) :
    execFhWord s.params.sync14 false b bsc src cac ssc false s = .next { s with
      cur := s.cur + 32
      fh := { s.fh with
        start := s.off, blockingStrategyFixed := strategyFixed b, blockSizeCode := bsc, sampleRateCode := src,
        channelAssignmentCode := cac, sampleSizeCode := ssc }
      elem := .idx } := by
  unfold execFhWord
  dsimp only
  rw [readBits_of_le (by omega) (by omega) (by simp only [State.rem_setFh, State.rem_advance]; omega),
    if_neg (by simp)]
  simp only [State.setFh_advance, State.setFh_setFh, State.advance_advance, State.setFh_fh, State.advance_fh]
  rw [readBits_of_le (by omega) (by omega) (by simp only [State.rem_setFh, State.rem_advance]; omega),
    if_neg (by simp)]
  simp only [State.setFh_advance, State.setFh_setFh, State.advance_advance, State.setFh_fh, State.advance_fh]
  rw [readBits_of_le (by omega) (by omega) (by simp only [State.rem_setFh, State.rem_advance]; omega)]
  simp only [State.setFh_advance, State.setFh_setFh, State.advance_advance, State.setFh_fh, State.advance_fh]
  rw [readBits_of_le (by omega) (by omega) (by simp only [State.rem_setFh, State.rem_advance]; omega)]
  simp only [State.setFh_advance, State.setFh_setFh, State.advance_advance, State.setFh_fh, State.advance_fh]
  rw [if_neg hbs]
  rw [readBits_of_le (by omega) (by omega) (by simp only [State.rem_setFh, State.rem_advance]; omega)]
  simp only [State.setFh_advance, State.setFh_setFh, State.advance_advance, State.setFh_fh, State.advance_fh]
  rw [if_neg hsr]
  rw [readBits_of_le (by omega) (by omega) (by simp only [State.rem_setFh, State.rem_advance]; omega)]
  simp only [State.setFh_advance, State.setFh_setFh, State.advance_advance, State.setFh_fh, State.advance_fh]
  rw [if_neg hca]
  rw [readBits_of_le (by omega) (by omega) (by simp only [State.rem_setFh, State.rem_advance]; omega)]
  simp only [State.setFh_advance, State.setFh_setFh, State.advance_advance, State.setFh_fh, State.advance_fh]
  rw [if_neg hss]
  rw [readBits_of_le (by omega) (by omega) (by simp only [State.rem_setFh, State.rem_advance]; omega),
    if_neg (by simp)]
  rfl

theorem blockSizeRow_elim {code : BitVec 4}
    (hbad : bsTable s.params code = .reserved → P (fail s .frameSyncLost (s.fh.start + 2)))
    (hlit : ∀ v, bsTable s.params code = .literal v → P (.next { s with fh := { s.fh with blockSize := v }, elem :=
      .srCode }))
    (hx8 : bsTable s.params code = .extra8 → P (.next { s with elem := .xbs8 }))
    (hx16 : bsTable s.params code = .extra16 → P (.next { s with elem := .xbs16 })) : P (blockSizeRow code s) := by
  unfold blockSizeRow; split
  · exact hbad ‹_›
  · exact hlit _ ‹_›
  · exact hx8 ‹_›
  · exact hx16 ‹_›

theorem sampleRateRow_elim {code : BitVec 4}
    (hbad : srTable s.params code = .reserved → P (fail s .frameSyncLost (s.fh.start + 2)))
    (hgo : ∀ v, srTable s.params code ≠ .reserved →
      P (.next { s with fh := { s.fh with sampleRateHz := v }, elem := .caCode }))
    (hx : ∀ e, srTable s.params code ≠ .reserved → e = .xsr8k ∨ e = .xsr16 ∨ e = .xsr16t →
      P (.next { s with elem := e })) : P (sampleRateRow code s) := by
  unfold sampleRateRow
  cases h : srTable s.params code with
  | reserved => exact hbad h
  | fromStreamInfo => exact hgo _ (by simp [h])
  | literal hz => exact hgo _ (by simp [h])
  | extra8kHz => exact hx _ (by simp [h]) (.inl rfl)
  | extra16Hz => exact hx _ (by simp [h]) (.inr (.inl rfl))
  | extra16TensHz => exact hx _ (by simp [h]) (.inr (.inr rfl))

theorem channelRow_elim {code : BitVec 4}
    (hbad : caTable s.params code = .reserved → P (fail s .frameSyncLost (s.fh.start + 3)))
    (hind : ∀ v, caTable s.params code = .independent v →
      P (.next { s with fh := { s.fh with channelCount := v }, elem := .ssCode }))
    (htwo : caTable s.params code ≠ .reserved →
      P (.next { s with fh := { s.fh with channelCount := 2 }, elem := .ssCode })) : P (channelRow code s) := by
  unfold channelRow
  cases h : caTable s.params code with
  | reserved => exact hbad h
  | independent n => exact hind _ h
  | leftSide => exact htwo (by simp [h])
  | sideRight => exact htwo (by simp [h])
  | midSide => exact htwo (by simp [h])

theorem sampleSizeRow_elim {code : BitVec 3}
    (hbad : ssTable s.params code = .reserved → P (fail s .frameSyncLost (s.fh.start + 3)))
    (hsi : ssTable s.params code = .fromStreamInfo →
      P (.next { s with fh := { s.fh with sampleSize := s.si.bitsPerSample }, elem := .crc8 }))
    (hlit : ∀ v, ssTable s.params code = .literal v →
      P (.next { s with fh := { s.fh with sampleSize := v }, elem := .crc8 })) : P (sampleSizeRow code s) := by
  unfold sampleSizeRow; split
  · exact hbad ‹_›
  · exact hsi ‹_›
  · exact hlit _ ‹_›

theorem beginChannels_elim
    (hgo : 0 < s.fh.channelCount.toNat → P (.next { s with ch := 0, elem := .sfh }))
    (hnone : s.fh.channelCount.toNat = 0 → P (.next { s with ch := 0, elem := .pad })) : P (beginChannels s) := by
  unfold beginChannels; split
  · exact hgo ‹_›
  · exact hnone (by omega)

/-- `CRC8`: cut short; or the verdict is stored, and a mismatch raises or is reported. -/
theorem execCrc8_elim {v : BitVec 8} (hcut : s.rem < 8 → P (fail s .outOfData s.off))
    (hok : 8 ≤ s.rem → v = s.wantCrc8 s.off →
      P (beginChannels { s with cur := s.cur + 8, fh := { s.fh with headerCrc8 := v, headerCrcOk := true } }))
    (hstrict : 8 ≤ s.rem → v ≠ s.wantCrc8 s.off → s.policy = false →
      P (fail { s with cur := s.cur + 8, fh := { s.fh with headerCrc8 := v, headerCrcOk := false } }
        .headerChecksumMismatch s.off))
    (hlenient : 8 ≤ s.rem → v ≠ s.wantCrc8 s.off → s.policy = true →
      P (beginChannels { s with
        cur := s.cur + 8, fh := { s.fh with headerCrc8 := v, headerCrcOk := false },
        out := s.out ++ [.report Failure.headerChecksumMismatch.code s.off] })) : P (execCrc8 v s) := by
  unfold execCrc8
  refine readBits_elim (by omega) (by omega) hcut fun h => ?_
  have hw : (s.advance 8).wantCrc8 s.off = s.wantCrc8 s.off := rfl
  by_cases hv : v = s.wantCrc8 s.off
  · simp only [hw, beq_iff_eq.2 hv]
    exact checkVerdict_elim (fun _ => hok h hv) (fun h => nomatch h) (fun h => nomatch h)
  · simp only [hw, beq_eq_false_iff_ne.2 hv]
    exact checkVerdict_elim (fun h => nomatch h) (fun _ hp => hstrict h hv hp) (fun _ hp => hlenient h hv hp)

/-! ## The index -/

theorem indexFirst_elim {m : BitVec 3} {v : BitVec 36} (hcut : s.rem < 8 → P (fail s .outOfData s.off))
    (hgo : 8 ≤ s.rem → P (.next { s with
      cur := s.cur + 8, idxAcc := v, idxLeft := m.toNat - 1, idxLen := m, elem := .idxCont })) :
    P (indexFirst m v s) := readBits_elim (by omega) (by omega) hcut hgo

theorem indexBad_elim (hcut : s.rem < 8 → P (fail s .outOfData s.off))
    (hbad : 8 ≤ s.rem → P (fail { s with cur := s.cur + 8 } .malformedIndex s.off)) : P (indexBad s) :=
  readBits_elim (by omega) (by omega) hcut hbad

theorem execIdx1_elim {v : BitVec 7} (hcut : s.rem < 8 → P (fail s .outOfData s.off))
    (hgo : 8 ≤ s.rem → P (.next { s with
      cur := s.cur + 8, fh := { s.fh with frameOrSampleIndex := v.setWidth 36, indexBytes := 1 },
      elem := .bsCode })) : P (execIdx1 v s) := readBits_elim (by omega) (by omega) hcut hgo

theorem execIdxCont_elim {top : BitVec 2} {data : BitVec 6} (hcut : s.rem < 8 → P (fail s .outOfData s.off))
    (hbad : 8 ≤ s.rem → top ≠ 0b10 → P (fail { s with cur := s.cur + 8 } .malformedIndex s.off))
    (hdone : 8 ≤ s.rem → top = 0b10 → s.idxLeft - 1 = 0 → P (.next { s with
      cur := s.cur + 8, idxAcc := indexAppend s.idxAcc data, idxLeft := s.idxLeft - 1,
      fh := { s.fh with frameOrSampleIndex := indexAppend s.idxAcc data, indexBytes := s.idxLen },
      elem := .bsCode }))
    (hmore : 8 ≤ s.rem → top = 0b10 → s.idxLeft - 1 ≠ 0 → P (.next { s with
      cur := s.cur + 8, idxAcc := indexAppend s.idxAcc data, idxLeft := s.idxLeft - 1, elem := .idxCont })) :
    P (execIdxCont top data s) := by
  unfold execIdxCont
  refine readBits_elim (by omega) (by omega) hcut fun h => ?_
  split
  · exact hbad h ‹_›
  · rename_i ht
    dsimp only
    split
    · exact hdone h (Classical.not_not.1 ht) ‹_›
    · exact hmore h (Classical.not_not.1 ht) ‹_›

/-! ## The subframes -/

theorem nextChannel_elim
    (hmore : (s.ch + 1).toNat < s.fh.channelCount.toNat → P (.next { s with ch := s.ch + 1, elem := .sfh }))
    (hlast : s.fh.channelCount.toNat ≤ (s.ch + 1).toNat → P (.next { s with ch := s.ch + 1, elem := .pad })) :
    P (nextChannel s) := by
  unfold nextChannel; dsimp only; split
  · exact hmore ‹_›
  · exact hlast (by omega)

/-- The start of the samples: a width below 1 raises; else the width is stored, and the first sample follows (or
the next channel, for a block size of 0). -/
theorem beginSamples_elim {u : Nat} (hfault : 8 ≤ s.ch.toNat → P (.fault (.noSubframe s.ch)))
    (hbad : ∀ f, s.sf[s.ch.toNat]? = some f →
      sampleWidth (channelWidth s.fh.sampleSize (caTable s.params s.fh.channelAssignmentCode) s.ch.toNat)
          f.wastedBitCount
        < 1 → P (fail s .frameSyncLost u))
    (hgo : ∀ f, s.sf[s.ch.toNat]? = some f → s.ch.toNat < 8 → ∀ w,
      w = sampleWidth (channelWidth s.fh.sampleSize (caTable s.params s.fh.channelAssignmentCode) s.ch.toNat)
        f.wastedBitCount → 1 ≤ w → s.fh.blockSize ≠ 0 →
      P (.next { s.setSubframe { f with width := BitVec.ofInt 6 w, samples := [] } with elem := .sample }))
    (hnone : ∀ f, s.sf[s.ch.toNat]? = some f → s.ch.toNat < 8 → ∀ w,
      w = sampleWidth (channelWidth s.fh.sampleSize (caTable s.params s.fh.channelAssignmentCode) s.ch.toNat)
        f.wastedBitCount → 1 ≤ w → s.fh.blockSize = 0 →
      P (nextChannel (s.setSubframe { f with width := BitVec.ofInt 6 w, samples := [] }))) :
    P (beginSamples u s) := by
  unfold beginSamples
  refine withSubframe_elim hfault fun f hf hlt => ?_
  dsimp only
  split
  · exact hbad f hf ‹_›
  · split
    · exact hnone f hf hlt _ rfl (by omega) ‹_›
    · exact hgo f hf hlt _ rfl (by omega) ‹_›

/-- A subframe header: a fault, a failure, or the type and the flag stored and the wasted-bits count or the
samples next. -/
theorem subframeHeader_elim {z w : Bool} {t : BitVec 6} (hfault : 8 ≤ s.ch.toNat → P (.fault (.noSubframe s.ch)))
    (hcut : ∀ n f, n ≤ 7 → n ≤ s.rem → s.sf[s.ch.toNat]? = some f →
      P (fail { s with cur := s.cur + n } .outOfData ((s.cur + n) / 8)))
    (hcut7 : ∀ f, s.rem = 7 → s.sf[s.ch.toNat]? = some f →
      P (fail { s.setSubframe { f with subframeType := classify t } with cur := s.cur + 7 } .outOfData
        ((s.cur + 7) / 8)))
    (hz : ∀ f, 1 ≤ s.rem → z = true → s.sf[s.ch.toNat]? = some f →
      P (fail { s with cur := s.cur + 1 } .reservedSubframeType s.off))
    (hrsvd : ∀ f, 7 ≤ s.rem → z = false → classify t = .reserved → s.sf[s.ch.toNat]? = some f →
      P (fail { s.setSubframe { f with subframeType := classify t } with cur := s.cur + 7 } .reservedSubframeType
        ((s.cur + 1) / 8)))
    (hunsup : ∀ f, 7 ≤ s.rem → z = false → classify t ≠ .reserved → classify t ≠ .verbatim →
      s.sf[s.ch.toNat]? = some f →
      P (fail { s.setSubframe { f with subframeType := classify t } with cur := s.cur + 7 }
        .unsupportedSubframeType ((s.cur + 1) / 8)))
    (hwasted : ∀ f, 8 ≤ s.rem → z = false → classify t = .verbatim → w = true → s.sf[s.ch.toNat]? = some f →
      P (.next { s.setSubframe { f with subframeType := .verbatim, wastedBitsPresent := true } with
        cur := s.cur + 8, elem := .wasted }))
    (hplain : ∀ f, 8 ≤ s.rem → z = false → classify t = .verbatim → w = false → s.sf[s.ch.toNat]? = some f →
      P (beginSamples ((s.cur + 8) / 8)
        { s.setSubframe { f with subframeType := .verbatim, wastedBitsPresent := false, wastedBitCount := 0 } with
          cur := s.cur + 8 })) : P (subframeHeader z t w s) := by
  unfold subframeHeader
  refine withSubframe_elim hfault fun f hf _ => ?_
  dsimp only
  refine readBits_elim (by omega) (by omega) (fun h => ?_) fun h1 => ?_
  · exact hcut 0 f (by omega) (by omega) hf
  split
  · exact hz f h1 ‹_› hf
  rename_i hzf
  have hzf : z = false := by simpa using hzf
  refine readBits_elim (by omega) (by omega) (fun _ => hcut 1 f (by omega) h1 hf) fun h2 => ?_
  have h7 : 7 ≤ s.rem := by simp only [State.rem, State.advance] at *; omega
  split
  · exact hrsvd f h7 hzf ‹_› hf
  · exact hunsup f h7 hzf (by simp [*]) (by simp [*]) hf
  · exact hunsup f h7 hzf (by simp [*]) (by simp [*]) hf
  · exact hunsup f h7 hzf (by simp [*]) (by simp [*]) hf
  · rename_i ht
    refine readBits_elim (by omega) (by omega) (fun h => ?_) fun h3 => ?_
    · exact hcut7 f (by simp only [State.rem, State.advance, State.setSubframe] at *; omega) hf
    have h8 : 8 ≤ s.rem := by simp only [State.rem, State.advance, State.setSubframe] at *; omega
    rw [ht]
    cases hw : w with
    | true =>
      simp only [if_true]
      have := hwasted f h8 hzf ht hw hf
      rw [← State.setSubframe_setSubframe s { f with subframeType := .verbatim }] at this
      exact this
    | false =>
      simp only [Bool.false_eq_true, if_false]
      have := hplain f h8 hzf ht hw hf
      rw [← State.setSubframe_setSubframe s { f with subframeType := .verbatim }] at this
      exact this

theorem execWasted_elim (hfault : 8 ≤ s.ch.toNat → P (.fault (.noSubframe s.ch)))
    (hcut : ∀ f, s.sf[s.ch.toNat]? = some f → s.rem < n → P (fail s .outOfData s.off))
    (hgo : ∀ f, s.sf[s.ch.toNat]? = some f → n ≤ s.rem →
      P (beginSamples s.off { s.setSubframe { f with wastedBitCount := n } with cur := s.cur + n })) :
    P (execWasted n s) := by
  unfold execWasted
  exact withSubframe_elim hfault fun f hf _ => readUnary0_elim (hcut f hf) (hgo f hf)

theorem execSample_elim {width : Nat} {field : BitVec 36} (hfault : 8 ≤ s.ch.toNat → P (.fault (.noSubframe s.ch)))
    (hrefuse : width = 0 ∨ 36 < width → P (.refused (.readBitsWidth width)))
    (hcut : ∀ f, s.sf[s.ch.toNat]? = some f → s.rem < width → P (fail s .outOfData s.off))
    (hmore : ∀ f, s.sf[s.ch.toNat]? = some f → s.ch.toNat < 8 → 1 ≤ width → width ≤ s.rem →
      f.samples.length + 1 < s.fh.blockSize.toNat →
      P (.next { s.setSubframe { f with samples := f.samples ++ [sext width field.toNat] } with
        cur := s.cur + width, elem := .sample }))
    (hlast : ∀ f, s.sf[s.ch.toNat]? = some f → s.ch.toNat < 8 → 1 ≤ width → width ≤ s.rem →
      s.fh.blockSize.toNat ≤ f.samples.length + 1 →
      P (nextChannel { s.setSubframe { f with samples := f.samples ++ [sext width field.toNat] } with
        cur := s.cur + width })) : P (execSample width field s) := by
  unfold execSample
  refine withSubframe_elim hfault fun f hf hlt => ?_
  by_cases hw : width = 0 ∨ 36 < width
  · rw [readBits_of_width hw]; exact hrefuse hw
  · refine readBits_elim (by omega) (by omega) (hcut f hf) fun h => ?_
    simp only [List.length_append, List.length_singleton]
    split
    · exact hmore f hf hlt (by omega) h ‹_›
    · rename_i hl
      exact hlast f hf hlt (by omega) h (by simpa [State.setSubframe, State.advance] using hl)

/-! ## The footer -/

/-- `CRC16`: cut short; or the verdict is stored, a mismatch raises or is reported, and the frame is emitted. -/
theorem execCrc16_elim {v : BitVec 16} (hcut : s.rem < 16 → P (fail s .outOfData s.off))
    (hok : 16 ≤ s.rem → v = s.wantCrc16 s.off → P (emitFrame { s with cur := s.cur + 16, fr := ⟨v, true⟩ }))
    (hstrict : 16 ≤ s.rem → v ≠ s.wantCrc16 s.off → s.policy = false →
      P (fail { s with cur := s.cur + 16, fr := ⟨v, false⟩ } .frameChecksumMismatch s.off))
    (hlenient : 16 ≤ s.rem → v ≠ s.wantCrc16 s.off → s.policy = true →
      P (emitFrame { s with
        cur := s.cur + 16, fr := ⟨v, false⟩,
        out := s.out ++ [.report Failure.frameChecksumMismatch.code s.off] })) : P (execCrc16 v s) := by
  unfold execCrc16
  refine readBits_elim (by omega) (by omega) hcut fun h => ?_
  have hw : (s.advance 16).wantCrc16 s.off = s.wantCrc16 s.off := rfl
  by_cases hv : v = s.wantCrc16 s.off
  · simp only [hw, beq_iff_eq.2 hv]
    exact checkVerdict_elim (fun _ => hok h hv) (fun h => nomatch h) (fun h => nomatch h)
  · simp only [hw, beq_eq_false_iff_ne.2 hv]
    exact checkVerdict_elim (fun h => nomatch h) (fun _ hp => hstrict h hv hp) (fun _ hp => hlenient h hv hp)

end Sys2Proof.Machine
end

