-- ==== Sys2Proof/Laws/Params.lean ====
section
/-! SUPPORT. The parameters: the default tables fit their registers, and what the row of a code does under any
table. -/

namespace Sys2Proof.Machine

/-- The literals of the default tables (00 R8) are values of the registers they are copied to. -/
theorem defaultParams_legal : ParamsLegal defaultParams := by
  have bs : ∀ c : BitVec 4, (match bsTable defaultParams c with
      | .literal n => decide (Within 1 n.toNat 65536)
      | _ => true) = true := by decide
  have ca : ∀ c : BitVec 4, (match caTable defaultParams c with
      | .independent n => decide (Within 1 n.toNat 8)
      | _ => true) = true := by decide
  have ss : ∀ c : BitVec 3, (match ssTable defaultParams c with
      | .literal n => decide (Within 1 n.toNat 32)
      | _ => true) = true := by decide
  exact ⟨fun c n h => by simpa [h] using bs c, fun c n h => by simpa [h] using ca c,
    fun c n h => by simpa [h] using ss c⟩

/-- The row of a block-size code is the shared meaning of the code (43 R170), whatever the table. -/
theorem exec_of_mem_bsCodes {p : Instr × BitVec 4} (s : State) (h : p ∈ bsCodes) :
    exec p.1 s = blockSizeRow p.2 s := by fin_cases h <;> rfl

/-- The row of a sample-rate code (43 R176). -/
theorem exec_of_mem_srCodes {p : Instr × BitVec 4} (s : State) (h : p ∈ srCodes) :
    exec p.1 s = sampleRateRow p.2 s := by fin_cases h <;> rfl

/-- The row of a channel code (43 R182). -/
theorem exec_of_mem_caCodes {p : Instr × BitVec 4} (s : State) (h : p ∈ caCodes) :
    exec p.1 s = channelRow p.2 s := by fin_cases h <;> rfl

/-- The row of a sample-size code (43 R185). -/
theorem exec_of_mem_ssCodes {p : Instr × BitVec 3} (s : State) (h : p ∈ ssCodes) :
    exec p.1 s = sampleSizeRow p.2 s := by fin_cases h <;> rfl

end Sys2Proof.Machine
end

