-- ==== Sys2Proof/Laws/PerInstr.lean ====
section
/-! SUPPORT. Statements for all instructions, one lemma per constructor. `EncodeLength`: a well-formed
instruction encodes to as many bits as its kind and its width say (30 R70), a unary code to its own count. -/

namespace Sys2Proof.Laws.EncodeLength

/-- The length of an encoding, for well-formed instructions. -/
def Statement (i : Instr) : Prop :=
  ∀ p, i.wellFormed p = true →
    (encode p i).length = (match i with | .wasted k => k | _ => i.elem.bits i.width)

theorem sig : ∀ word, Statement (.sig word) := fun _ => fun _ _ => by simp [encode, Instr.elem, Elem.bits]

theorem mbhSi : ∀ isLast length, Statement (.mbhSi isLast length) :=
  fun _ _ => fun _ _ => by simp [encode, Instr.elem, Elem.bits]

theorem mbhOther : ∀ isLast blockType length, Statement (.mbhOther isLast blockType length) :=
  fun _ _ _ => fun _ _ => by simp [encode, Instr.elem, Elem.bits]

theorem siBody : ∀ minBlockSize maxBlockSize minFrameSize maxFrameSize sampleRateHz channelCountMinus1 bitsPerSampleMinus1 totalSamples contentHash,
    Statement (.siBody minBlockSize maxBlockSize minFrameSize maxFrameSize sampleRateHz channelCountMinus1 bitsPerSampleMinus1 totalSamples contentHash) :=
  fun _ _ _ _ _ _ _ _ _ => fun _ _ => by simp [encode, Instr.elem, Elem.bits]

theorem mbBody : Statement .mbBody := fun _ _ => rfl

theorem fhWord : ∀ sync z1 b bsc src cac ssc z2, Statement (.fhWord sync z1 b bsc src cac ssc z2) :=
  fun _ _ _ _ _ _ _ _ => fun _ _ => by simp [encode, Instr.elem, Elem.bits]

theorem bs0000 : Statement .bs0000 := fun _ _ => rfl

theorem bs0001 : Statement .bs0001 := fun _ _ => rfl

theorem bs0010 : Statement .bs0010 := fun _ _ => rfl

theorem bs0011 : Statement .bs0011 := fun _ _ => rfl

theorem bs0100 : Statement .bs0100 := fun _ _ => rfl

theorem bs0101 : Statement .bs0101 := fun _ _ => rfl

theorem bs0110 : Statement .bs0110 := fun _ _ => rfl

theorem bs0111 : Statement .bs0111 := fun _ _ => rfl

theorem bs1000 : Statement .bs1000 := fun _ _ => rfl

theorem bs1001 : Statement .bs1001 := fun _ _ => rfl

theorem bs1010 : Statement .bs1010 := fun _ _ => rfl

theorem bs1011 : Statement .bs1011 := fun _ _ => rfl

theorem bs1100 : Statement .bs1100 := fun _ _ => rfl

theorem bs1101 : Statement .bs1101 := fun _ _ => rfl

theorem bs1110 : Statement .bs1110 := fun _ _ => rfl

theorem bs1111 : Statement .bs1111 := fun _ _ => rfl

theorem sr0000 : Statement .sr0000 := fun _ _ => rfl

theorem sr0001 : Statement .sr0001 := fun _ _ => rfl

theorem sr0010 : Statement .sr0010 := fun _ _ => rfl

theorem sr0011 : Statement .sr0011 := fun _ _ => rfl

theorem sr0100 : Statement .sr0100 := fun _ _ => rfl

theorem sr0101 : Statement .sr0101 := fun _ _ => rfl

theorem sr0110 : Statement .sr0110 := fun _ _ => rfl

theorem sr0111 : Statement .sr0111 := fun _ _ => rfl

theorem sr1000 : Statement .sr1000 := fun _ _ => rfl

theorem sr1001 : Statement .sr1001 := fun _ _ => rfl

theorem sr1010 : Statement .sr1010 := fun _ _ => rfl

theorem sr1011 : Statement .sr1011 := fun _ _ => rfl

theorem sr1100 : Statement .sr1100 := fun _ _ => rfl

theorem sr1101 : Statement .sr1101 := fun _ _ => rfl

theorem sr1110 : Statement .sr1110 := fun _ _ => rfl

theorem sr1111 : Statement .sr1111 := fun _ _ => rfl

theorem ca0000 : Statement .ca0000 := fun _ _ => rfl

theorem ca0001 : Statement .ca0001 := fun _ _ => rfl

theorem ca0010 : Statement .ca0010 := fun _ _ => rfl

theorem ca0011 : Statement .ca0011 := fun _ _ => rfl

theorem ca0100 : Statement .ca0100 := fun _ _ => rfl

theorem ca0101 : Statement .ca0101 := fun _ _ => rfl

theorem ca0110 : Statement .ca0110 := fun _ _ => rfl

theorem ca0111 : Statement .ca0111 := fun _ _ => rfl

theorem ca1000 : Statement .ca1000 := fun _ _ => rfl

theorem ca1001 : Statement .ca1001 := fun _ _ => rfl

theorem ca1010 : Statement .ca1010 := fun _ _ => rfl

theorem ca1011 : Statement .ca1011 := fun _ _ => rfl

theorem ca1100 : Statement .ca1100 := fun _ _ => rfl

theorem ca1101 : Statement .ca1101 := fun _ _ => rfl

theorem ca1110 : Statement .ca1110 := fun _ _ => rfl

theorem ca1111 : Statement .ca1111 := fun _ _ => rfl

theorem ss000 : Statement .ss000 := fun _ _ => rfl

theorem ss001 : Statement .ss001 := fun _ _ => rfl

theorem ss010 : Statement .ss010 := fun _ _ => rfl

theorem ss011 : Statement .ss011 := fun _ _ => rfl

theorem ss100 : Statement .ss100 := fun _ _ => rfl

theorem ss101 : Statement .ss101 := fun _ _ => rfl

theorem ss110 : Statement .ss110 := fun _ _ => rfl

theorem ss111 : Statement .ss111 := fun _ _ => rfl

theorem idx1 : ∀ v, Statement (.idx1 v) := fun _ => fun _ _ => by simp [encode, Instr.elem, Elem.bits]

theorem idx2 : ∀ v, Statement (.idx2 v) := fun _ => fun _ _ => by simp [encode, Instr.elem, Elem.bits]

theorem idx3 : ∀ v, Statement (.idx3 v) := fun _ => fun _ _ => by simp [encode, Instr.elem, Elem.bits]

theorem idx4 : ∀ v, Statement (.idx4 v) := fun _ => fun _ _ => by simp [encode, Instr.elem, Elem.bits]

theorem idx5 : ∀ v, Statement (.idx5 v) := fun _ => fun _ _ => by simp [encode, Instr.elem, Elem.bits]

theorem idx6 : ∀ v, Statement (.idx6 v) := fun _ => fun _ _ => by simp [encode, Instr.elem, Elem.bits]

theorem idx7 : Statement .idx7 := fun _ _ => rfl

theorem idxBad10 : ∀ x, Statement (.idxBad10 x) := fun _ => fun _ _ => by simp [encode, Instr.elem, Elem.bits]

theorem idxBadFF : Statement .idxBadFF := fun _ _ => rfl

theorem idxCont : ∀ top data, Statement (.idxCont top data) :=
  fun _ _ => fun _ _ => by simp [encode, Instr.elem, Elem.bits]

theorem xbs8 : ∀ v, Statement (.xbs8 v) := fun _ => fun _ _ => by simp [encode, Instr.elem, Elem.bits]

theorem xbs16 : ∀ v, Statement (.xbs16 v) := fun _ => fun _ _ => by simp [encode, Instr.elem, Elem.bits]

theorem xsr8k : ∀ v, Statement (.xsr8k v) := fun _ => fun _ _ => by simp [encode, Instr.elem, Elem.bits]

theorem xsr16 : ∀ v, Statement (.xsr16 v) := fun _ => fun _ _ => by simp [encode, Instr.elem, Elem.bits]

theorem xsr16t : ∀ v, Statement (.xsr16t v) := fun _ => fun _ _ => by simp [encode, Instr.elem, Elem.bits]

theorem crc8 : ∀ headerCrc8, Statement (.crc8 headerCrc8) :=
  fun _ => fun _ _ => by simp [encode, Instr.elem, Elem.bits]

theorem sfhConstant : ∀ w, Statement (.sfhConstant w) :=
  fun _ => fun _ _ => by simp [encode, putSfh, Instr.elem, Elem.bits]

theorem sfhVerbatim : ∀ w, Statement (.sfhVerbatim w) :=
  fun _ => fun _ _ => by simp [encode, putSfh, Instr.elem, Elem.bits]

theorem sfhRsvd00001x : ∀ x w, Statement (.sfhRsvd00001x x w) :=
  fun _ _ => fun _ _ => by simp [encode, putSfh, Instr.elem, Elem.bits]

theorem sfhRsvd0001xx : ∀ x w, Statement (.sfhRsvd0001xx x w) :=
  fun _ _ => fun _ _ => by simp [encode, putSfh, Instr.elem, Elem.bits]

theorem sfhFixed : ∀ o w, Statement (.sfhFixed o w) :=
  fun _ _ => fun _ _ => by simp [encode, putSfh, Instr.elem, Elem.bits]

theorem sfhRsvd01xxxx : ∀ x w, Statement (.sfhRsvd01xxxx x w) :=
  fun _ _ => fun _ _ => by simp [encode, putSfh, Instr.elem, Elem.bits]

theorem sfhLpc : ∀ o w, Statement (.sfhLpc o w) :=
  fun _ _ => fun _ _ => by simp [encode, putSfh, Instr.elem, Elem.bits]

theorem sfhRsvdZ : ∀ t w, Statement (.sfhRsvdZ t w) := fun _ _ => fun _ _ => by simp [encode, Instr.elem, Elem.bits]

theorem wasted (k : Nat) : Statement (.wasted k) := by
  intro _ h
  simp only [Instr.wellFormed, decide_eq_true_eq] at h
  simp only [encode, List.length_append, List.length_replicate, List.length_singleton]
  omega

theorem sample : ∀ width field, Statement (.sample width field) :=
  fun _ _ => fun _ _ => by simp [encode, Instr.elem, Elem.bits, Instr.width]

theorem pad : ∀ bits, Statement (.pad bits) :=
  fun _ => fun _ _ => by simp [encode, Instr.elem, Elem.bits, Instr.width]

theorem crc16 : ∀ footerCrc16, Statement (.crc16 footerCrc16) :=
  fun _ => fun _ _ => by simp [encode, Instr.elem, Elem.bits]

end Sys2Proof.Laws.EncodeLength
end

