-- ==== Sys2Proof/Laws/Run.lean ====
section
/-! SUPPORT. Several steps of the machine (`Host.Core.run` of `Sys2Proof.core`): one more step, and two runs end to
end. -/

namespace Sys2Proof.Machine

variable {s t u : State} {m n : Nat}

theorem run_zero (s : State) : Host.Core.run core 0 s = .next s := rfl

theorem run_succ (h : step s = .next t) : Host.Core.run core (n + 1) s = Host.Core.run core n t := by
  have h : core.step s = .next t := h
  simp only [Host.Core.run, h]

/-- A run of `n + 1` steps that answers a state takes a first step. -/
theorem run_succ_next (h : Host.Core.run core (n + 1) s = .next t) :
    ∃ u, step s = .next u ∧ Host.Core.run core n u = .next t := by
  simp only [Host.Core.run] at h
  cases hs : core.step s with
  | next u => rw [hs] at h; exact ⟨u, hs, h⟩
  | fault r => rw [hs] at h; cases h
  | refused r => rw [hs] at h; cases h

theorem run_add (h : Host.Core.run core m s = .next t) :
    Host.Core.run core (m + n) s = Host.Core.run core n t := by
  induction m generalizing s with
  | zero => cases h; rw [Nat.zero_add]
  | succ m ih =>
    obtain ⟨u, h1, h2⟩ := run_succ_next h
    rw [Nat.add_right_comm, run_succ h1, ih h2]

end Sys2Proof.Machine
end

