-- ==== Sys2Proof/Laws/Step.lean ====
section
/-! SUPPORT. Fetching and stepping: a fetched instruction is of the kind expected, and what a step can do, once,
by the element under way (`runElement_elim`) and by the host's pending action (`step_elim`). -/

namespace Sys2Proof

theorem elem_bsRow (n : Nat) : (bsRows.getD n .bs0000).elem = .bsCode := by
  rcases Nat.lt_or_ge n 16 with h | h
  · interval_cases n <;> rfl
  · rw [List.getD_eq_default _ _ (by simpa [bsRows] using h)]; rfl

theorem elem_srRow (n : Nat) : (srRows.getD n .sr1111).elem = .srCode := by
  rcases Nat.lt_or_ge n 16 with h | h
  · interval_cases n <;> rfl
  · rw [List.getD_eq_default _ _ (by simpa [srRows] using h)]; rfl

theorem elem_caRow (n : Nat) : (caRows.getD n .ca1111).elem = .caCode := by
  rcases Nat.lt_or_ge n 16 with h | h
  · interval_cases n <;> rfl
  · rw [List.getD_eq_default _ _ (by simpa [caRows] using h)]; rfl

theorem elem_ssRow (n : Nat) : (ssRows.getD n .ss111).elem = .ssCode := by
  rcases Nat.lt_or_ge n 8 with h | h
  · interval_cases n <;> rfl
  · rw [List.getD_eq_default _ _ (by simpa [ssRows] using h)]; rfl

theorem elem_idxForm (b : BitVec 8) : (idxForm b).elem = .idx := by unfold idxForm; split <;> rfl

theorem elem_sfhForm (z : Bool) (t : BitVec 6) (w : Bool) : (sfhForm z t w).elem = .sfh := by
  unfold sfhForm; repeat' split
  all_goals rfl

theorem elem_mbhForm (p : Params) (l : Bool) (t : BitVec 7) (n : BitVec 24) : (mbhForm p l t n).elem = .mbh := by
  unfold mbhForm; split <;> rfl

/-- The decoder answers an instruction of the kind it was asked for. -/
theorem decode_elem {p : Params} {e : Elem} {w : Nat} {bs rest : Bits} {i : Instr}
    (h : decode p e w bs = .ok (i, rest)) :
    i.elem = e := by
  unfold decode at h
  split at h
  · cases h
  · cases e <;> simp only [decodeWhole] at h
    case rest => cases h
    case wasted => split at h <;> cases h; rfl
    all_goals cases h
    case bsCode.refl => exact elem_bsRow _
    case srCode.refl => exact elem_srRow _
    case caCode.refl => exact elem_caRow _
    case ssCode.refl => exact elem_ssRow _
    case idx.refl => exact elem_idxForm _
    case sfh.refl => exact elem_sfhForm _ _ _
    case mbh.refl => exact elem_mbhForm _ _ _ _
    all_goals rfl

namespace Machine

variable {P : Res → Prop} {s : State}

@[simp] theorem State.streamBits_length (s : State) (n : Nat) : (s.streamBits n).length = n := by
  simp [State.streamBits]

/-- A run of stream bits in two parts. -/
theorem State.streamBits_add (s : State) (m n : Nat) :
    s.streamBits (m + n) = s.streamBits m ++ (s.advance m).streamBits n := by
  simp only [State.streamBits, List.range_add, List.map_append, List.map_map]
  congr 1
  apply List.map_congr_left
  intro i _
  simp [State.bitAt, State.readByte, State.readByte?, State.advance, Nat.add_assoc]

theorem putField_byte : ∀ b : Byte, putField b = (List.range 8).map fun i => b.getLsbD (7 - i) := by decide

/-- The eight bits at a byte boundary are those of the byte there. -/
theorem State.streamBits_byte (s : State) (h : s.cur % 8 = 0) :
    s.streamBits 8 = putField (s.readByte (s.cur / 8)) := by
  rw [putField_byte]
  apply List.map_congr_left
  intro i hi
  have := List.mem_range.1 hi
  rw [State.bitAt]
  congr 2 <;> omega

/-- The value of a field read off the stream. -/
theorem State.getField_streamBits (s : State) (n : Nat) :
    (getField n (s.streamBits n)).1.toNat = bitsVal (s.streamBits n) := by
  have hlt := bitsVal_lt (s.streamBits n)
  rw [State.streamBits_length] at hlt
  simp only [getField, BitVec.toNat_ofNat]
  rw [List.take_of_length_le (by simp), Nat.mod_eq_of_lt hlt]

/-- The window holds the whole element. -/
theorem State.bits_le_window (s : State) : s.elem.bits s.elemWidth ≤ s.window.length := by
  unfold State.window
  cases h : s.elem <;> simp [Elem.bits]

/-- What is fetched is what the decoder reads off the window. -/
theorem fetch_eq (s : State) : fetch s = ((decodeWhole s.params s.elem s.elemWidth s.window).toOption.map Prod.fst) :=
  by
  unfold fetch decode
  rw [if_neg (by have := s.bits_le_window; omega)]
  cases decodeWhole s.params s.elem s.elemWidth s.window <;> rfl

theorem fetch_elem {i : Instr} (h : fetch s = some i) : i.elem = s.elem := by
  unfold fetch at h
  split at h
  · cases h; exact decode_elem ‹_›
  · cases h

/-- Wherever an element is under way, one is fetched. -/
theorem fetch_isSome (h : s.elem ≠ .rest) : ∃ i, fetch s = some i := by
  rw [fetch_eq]
  cases he : s.elem <;> simp only [decodeWhole]
  case rest => exact absurd he h
  case wasted =>
    obtain ⟨k, rest, hk⟩ := decodeUnary_isSome (bs := s.window) (by simp [State.window, he])
    rw [hk]; exact ⟨_, rfl⟩
  all_goals exact ⟨_, rfl⟩

theorem fetch_rest (h : s.elem = .rest) : fetch s = none := by rw [fetch_eq, h]; rfl

theorem runElement_of_fetch {i : Instr} (h : fetch s = some i) : runElement s = exec i s := by
  rw [runElement, h]

/-! ## The rows of a code -/

theorem exec_bsRow (c : BitVec 4) (s : State) : exec (bsRows.getD c.toNat .bs0000) s = blockSizeRow c s := by
  obtain ⟨⟨n, hn⟩⟩ := c; interval_cases n <;> rfl

theorem exec_srRow (c : BitVec 4) (s : State) : exec (srRows.getD c.toNat .sr1111) s = sampleRateRow c s := by
  obtain ⟨⟨n, hn⟩⟩ := c; interval_cases n <;> rfl

theorem exec_caRow (c : BitVec 4) (s : State) : exec (caRows.getD c.toNat .ca1111) s = channelRow c s := by
  obtain ⟨⟨n, hn⟩⟩ := c; interval_cases n <;> rfl

theorem exec_ssRow (c : BitVec 3) (s : State) : exec (ssRows.getD c.toNat .ss111) s = sampleSizeRow c s := by
  obtain ⟨⟨n, hn⟩⟩ := c; interval_cases n <;> rfl

theorem exec_mbhForm (l : Bool) (t : BitVec 7) (n : BitVec 24) (s : State) :
    exec (mbhForm s.params l t n) s = blockHeader l t n s := by
  unfold mbhForm; split
  · subst t; rfl
  · rfl

theorem sfhType_rsvd00001x : ∀ t : BitVec 6, 2 ≤ t.toNat → t.toNat < 4 → 0b00001#5 ++ t.setWidth 1 = t := by
  decide

theorem sfhType_rsvd0001xx : ∀ t : BitVec 6, 4 ≤ t.toNat → t.toNat < 8 → 0b0001#4 ++ t.setWidth 2 = t := by
  decide

theorem sfhType_fixed : ∀ t : BitVec 6, 8 ≤ t.toNat → t.toNat < 16 → 0b001#3 ++ t.setWidth 3 = t := by decide

theorem sfhType_rsvd01xxxx : ∀ t : BitVec 6, 16 ≤ t.toNat → t.toNat < 32 → 0b01#2 ++ t.setWidth 4 = t := by
  decide

theorem sfhType_lpc : ∀ t : BitVec 6, 32 ≤ t.toNat → 0b1#1 ++ t.setWidth 5 = t := by decide

/-- Whatever form a subframe header decodes to, its meaning is that of its three fields. -/
theorem exec_sfhForm (z : Bool) (t : BitVec 6) (w : Bool) (s : State) :
    exec (sfhForm z t w) s = subframeHeader z t w s := by
  unfold sfhForm
  cases z
  · simp only [Bool.false_eq_true, if_false]
    split
    · rw [show t = 0 from BitVec.eq_of_toNat_eq (by simpa using ‹_›)]; rfl
    split
    · rw [show t = 1 from BitVec.eq_of_toNat_eq (by simpa using ‹_›)]; rfl
    split
    · exact congrArg (subframeHeader false · w s) (sfhType_rsvd00001x t (by omega) ‹_›)
    split
    · exact congrArg (subframeHeader false · w s) (sfhType_rsvd0001xx t (by omega) ‹_›)
    split
    · exact congrArg (subframeHeader false · w s) (sfhType_fixed t (by omega) ‹_›)
    split
    · exact congrArg (subframeHeader false · w s) (sfhType_rsvd01xxxx t (by omega) ‹_›)
    · exact congrArg (subframeHeader false · w s) (sfhType_lpc t (by omega))
  · rfl

/-- The first byte of the index: one byte in all, a first byte of 2 to 7, or no first byte. -/
theorem exec_idxForm_elim (b : BitVec 8) (h1 : ∀ v, P (execIdx1 v s))
    (hn : ∀ m v, 2 ≤ BitVec.toNat m → P (indexFirst m v s)) (hbad : P (indexBad s)) : P (exec (idxForm b) s) := by
  unfold idxForm
  split
  · exact h1 _
  · exact hbad
  · exact hn 2 _ (by decide)
  · exact hn 3 _ (by decide)
  · exact hn 4 _ (by decide)
  · exact hn 5 _ (by decide)
  · exact hn 6 _ (by decide)
  · exact hn 7 _ (by decide)
  · exact hbad

/-! ## One step -/

/-- What the element under way can do: its meaning, on whatever fields the stream holds. The code rows take
their code from its register. -/
theorem runElement_elim
    (hrest : s.elem = .rest → P (.next s))
    (hsig : s.elem = .sig → ∀ w, P (execSig w s))
    (hmbh : s.elem = .mbh → ∀ l t n, P (blockHeader l t n s))
    (hsi : s.elem = .siBody → ∀ a b c d e f g h i, P (execSiBody a b c d e f g h i s))
    (hbody : s.elem = .mbBody → P (execMbBody s))
    (hword : s.elem = .fhWord → ∀ a b c d e f g h, P (execFhWord a b c d e f g h s))
    (hbs : s.elem = .bsCode → P (blockSizeRow s.fh.blockSizeCode s))
    (hsr : s.elem = .srCode → P (sampleRateRow s.fh.sampleRateCode s))
    (hca : s.elem = .caCode → P (channelRow s.fh.channelAssignmentCode s))
    (hss : s.elem = .ssCode → P (sampleSizeRow s.fh.sampleSizeCode s))
    (hidx1 : s.elem = .idx → ∀ v, P (execIdx1 v s))
    (hidxn : s.elem = .idx → ∀ m v, 2 ≤ BitVec.toNat m → P (indexFirst m v s))
    (hidxbad : s.elem = .idx → P (indexBad s))
    (hcont : s.elem = .idxCont → ∀ t d, P (execIdxCont t d s))
    (hx8 : s.elem = .xbs8 → ∀ v, P (execXbs8 v s))
    (hx16 : s.elem = .xbs16 → ∀ v, P (execXbs16 v s))
    (hr8 : s.elem = .xsr8k → ∀ v, P (execXsr8k v s))
    (hr16 : s.elem = .xsr16 → ∀ v, P (execXsr16 v s))
    (hr16t : s.elem = .xsr16t → ∀ v, P (execXsr16t v s))
    (hcrc8 : s.elem = .crc8 → ∀ v, P (execCrc8 v s))
    (hsfh : s.elem = .sfh → ∀ z t w, P (subframeHeader z t w s))
    (hwasted : s.elem = .wasted → ∀ k, 1 ≤ k → P (execWasted k s))
    (hsample : s.elem = .sample → ∀ v, P (execSample s.elemWidth v s))
    (hpad : s.elem = .pad → ∀ bs, P (execPad bs s))
    (hcrc16 : s.elem = .crc16 → ∀ v, P (execCrc16 v s)) : P (runElement s) := by
  unfold runElement
  cases hf : fetch s with
  | none =>
    by_cases hr : s.elem = .rest
    · exact hrest hr
    · obtain ⟨i, hi⟩ := fetch_isSome hr
      rw [hf] at hi; cases hi
  | some i =>
    simp only
    have hz : ∀ (n : Nat) (v : BitVec n), (getField n (putField v)).1 = v := fun n v => by
      have := getField_putField v []
      rw [List.append_nil] at this; rw [this]
    rw [fetch_eq] at hf
    cases he : s.elem <;> rw [he] at hf <;> simp only [decodeWhole] at hf
    case rest => cases hf
    case wasted =>
      cases hu : decodeUnary s.window with
      | none => rw [hu] at hf; cases hf
      | some p =>
        rw [hu] at hf
        cases hf
        exact hwasted he _ (decodeUnary_some (k := p.1) (rest := p.2) hu).1
    all_goals cases hf
    case sig.refl => exact hsig he _
    case mbh.refl => exact (exec_mbhForm _ _ _ s).symm ▸ hmbh he _ _ _
    case siBody.refl => exact hsi he _ _ _ _ _ _ _ _ _
    case mbBody.refl => exact hbody he
    case fhWord.refl => exact hword he _ _ _ _ _ _ _ _
    case bsCode.refl =>
      rw [exec_bsRow, show s.window = putField s.fh.blockSizeCode by rw [State.window, he], hz]; exact hbs he
    case srCode.refl =>
      rw [exec_srRow, show s.window = putField s.fh.sampleRateCode by rw [State.window, he], hz]; exact hsr he
    case caCode.refl =>
      rw [exec_caRow, show s.window = putField s.fh.channelAssignmentCode by rw [State.window, he], hz]
      exact hca he
    case ssCode.refl =>
      rw [exec_ssRow, show s.window = putField s.fh.sampleSizeCode by rw [State.window, he], hz]; exact hss he
    case idx.refl => exact exec_idxForm_elim _ (hidx1 he) (hidxn he) (hidxbad he)
    case idxCont.refl => exact hcont he _ _
    case xbs8.refl => exact hx8 he _
    case xbs16.refl => exact hx16 he _
    case xsr8k.refl => exact hr8 he _
    case xsr16.refl => exact hr16 he _
    case xsr16t.refl => exact hr16t he _
    case crc8.refl => exact hcrc8 he _
    case sfh.refl => exact (exec_sfhForm _ _ _ s).symm ▸ hsfh he _ _ _
    case sample.refl => exact hsample he _
    case pad.refl => exact hpad he (s.window.take s.elemWidth)
    case crc16.refl => exact hcrc16 he _

/-- The row of a code does what its four (three) bits say. -/
theorem exec_bsCode {i : Instr} (p : Params) (h : i.elem = .bsCode) :
    exec i s = blockSizeRow (getField 4 (encode p i)).1 s := by
  cases i <;> cases h <;> rfl

theorem exec_srCode {i : Instr} (p : Params) (h : i.elem = .srCode) :
    exec i s = sampleRateRow (getField 4 (encode p i)).1 s := by
  cases i <;> cases h <;> rfl

theorem exec_caCode {i : Instr} (p : Params) (h : i.elem = .caCode) :
    exec i s = channelRow (getField 4 (encode p i)).1 s := by
  cases i <;> cases h <;> rfl

theorem exec_ssCode {i : Instr} (p : Params) (h : i.elem = .ssCode) :
    exec i s = sampleSizeRow (getField 3 (encode p i)).1 s := by
  cases i <;> cases h <;> rfl

/-- What an instruction can do, whichever it is: the meaning of its kind, on whatever operands. -/
theorem exec_elim {i : Instr}
    (hsig : i.elem = .sig → ∀ w, P (execSig w s))
    (hmbh : i.elem = .mbh → ∀ l t n, P (blockHeader l t n s))
    (hsi : i.elem = .siBody → ∀ a b c d e f g h j, P (execSiBody a b c d e f g h j s))
    (hbody : i.elem = .mbBody → P (execMbBody s))
    (hword : i.elem = .fhWord → ∀ a b c d e f g h, P (execFhWord a b c d e f g h s))
    (hbs : i.elem = .bsCode → ∀ c, P (blockSizeRow c s))
    (hsr : i.elem = .srCode → ∀ c, P (sampleRateRow c s))
    (hca : i.elem = .caCode → ∀ c, P (channelRow c s))
    (hss : i.elem = .ssCode → ∀ c, P (sampleSizeRow c s))
    (hidx1 : i.elem = .idx → ∀ v, P (execIdx1 v s))
    (hidxn : i.elem = .idx → ∀ m v, 2 ≤ BitVec.toNat m → P (indexFirst m v s))
    (hidxbad : i.elem = .idx → P (indexBad s))
    (hcont : i.elem = .idxCont → ∀ t d, P (execIdxCont t d s))
    (hx8 : i.elem = .xbs8 → ∀ v, P (execXbs8 v s))
    (hx16 : i.elem = .xbs16 → ∀ v, P (execXbs16 v s))
    (hr8 : i.elem = .xsr8k → ∀ v, P (execXsr8k v s))
    (hr16 : i.elem = .xsr16 → ∀ v, P (execXsr16 v s))
    (hr16t : i.elem = .xsr16t → ∀ v, P (execXsr16t v s))
    (hcrc8 : i.elem = .crc8 → ∀ v, P (execCrc8 v s))
    (hsfh : i.elem = .sfh → ∀ z t w, P (subframeHeader z t w s))
    (hwasted : i.elem = .wasted → ∀ k, P (execWasted k s))
    (hsample : i.elem = .sample → ∀ w v, P (execSample w v s))
    (hpad : i.elem = .pad → ∀ bs, P (execPad bs s))
    (hcrc16 : i.elem = .crc16 → ∀ v, P (execCrc16 v s)) : P (exec i s) := by
  cases i with
  | sig w => exact hsig rfl w
  | mbhSi l n => exact hmbh rfl l _ n
  | mbhOther l t n => exact hmbh rfl l t n
  | siBody a b c d e f g h j => exact hsi rfl a b c d e f g h j
  | mbBody => exact hbody rfl
  | fhWord a b c d e f g h => exact hword rfl a b c d e f g h
  | idx1 v => exact hidx1 rfl v
  | idx2 v => exact hidxn rfl 2 _ (by decide)
  | idx3 v => exact hidxn rfl 3 _ (by decide)
  | idx4 v => exact hidxn rfl 4 _ (by decide)
  | idx5 v => exact hidxn rfl 5 _ (by decide)
  | idx6 v => exact hidxn rfl 6 _ (by decide)
  | idx7 => exact hidxn rfl 7 _ (by decide)
  | idxBad10 x => exact hidxbad rfl
  | idxBadFF => exact hidxbad rfl
  | idxCont t d => exact hcont rfl t d
  | xbs8 v => exact hx8 rfl v
  | xbs16 v => exact hx16 rfl v
  | xsr8k v => exact hr8 rfl v
  | xsr16 v => exact hr16 rfl v
  | xsr16t v => exact hr16t rfl v
  | crc8 v => exact hcrc8 rfl v
  | sfhConstant w => exact hsfh rfl false 0 w
  | sfhVerbatim w => exact hsfh rfl false 1 w
  | sfhRsvd00001x x w => exact hsfh rfl false _ w
  | sfhRsvd0001xx x w => exact hsfh rfl false _ w
  | sfhFixed o w => exact hsfh rfl false _ w
  | sfhRsvd01xxxx x w => exact hsfh rfl false _ w
  | sfhLpc o w => exact hsfh rfl false _ w
  | sfhRsvdZ t w => exact hsfh rfl true t w
  | wasted k => exact hwasted rfl k
  | sample w v => exact hsample rfl w v
  | pad bs => exact hpad rfl bs
  | crc16 v => exact hcrc16 rfl v
  | bs0000 | bs0001 | bs0010 | bs0011 | bs0100 | bs0101 | bs0110 | bs0111 | bs1000 | bs1001 | bs1010 | bs1011
  | bs1100 | bs1101 | bs1110 | bs1111 => rw [exec_bsCode s.params rfl]; exact hbs rfl _
  | sr0000 | sr0001 | sr0010 | sr0011 | sr0100 | sr0101 | sr0110 | sr0111 | sr1000 | sr1001 | sr1010 | sr1011
  | sr1100 | sr1101 | sr1110 | sr1111 => rw [exec_srCode s.params rfl]; exact hsr rfl _
  | ca0000 | ca0001 | ca0010 | ca0011 | ca0100 | ca0101 | ca0110 | ca0111 | ca1000 | ca1001 | ca1010 | ca1011
  | ca1100 | ca1101 | ca1110 | ca1111 => rw [exec_caCode s.params rfl]; exact hca rfl _
  | ss000 | ss001 | ss010 | ss011 | ss100 | ss101 | ss110 | ss111 => rw [exec_ssCode s.params rfl]; exact hss rfl _

/-- What one action of the host does. -/
theorem hostMove_elim {a : HostAction}
    (hreset : a = .reset → P (.next s.toReset))
    (hstart : a = .start → s.phase = .idle →
      P (.next { s with cur := 0, policy := s.lenient, phase := .sig, elem := .sig }))
    (hend : a = .next → s.phase = .frame → s.cur = 8 * s.len →
      P (.next { s with out := s.out ++ [.endOfStream], phase := .done }))
    (hframe : a = .next → s.phase = .frame → s.cur ≠ 8 * s.len → P (.next { s with elem := .fhWord }))
    (hlenient : ∀ b, a = .setLenient b → P (.next { s with lenient := b }))
    (hinput : ∀ bytes, a = .setInput bytes → s.phase = .idle →
      P (.next { s with mem := Memory.ofBytes 0 bytes, len := bytes.length }))
    (hchanged : ∀ bytes, a = .setInput bytes → s.phase ≠ .idle → P (.refused .inputChanged))
    (hnone : a = .wait ∨ a = .start ∧ s.phase ≠ .idle ∨ a = .next ∧ s.phase ≠ .frame → P (.next s)) :
    P (hostMove a s) := by
  cases a with
  | reset => exact hreset rfl
  | start =>
    simp only [hostMove, State.toStart]
    split
    · exact hstart rfl ‹_›
    · exact hnone (.inr (.inl ⟨rfl, ‹_›⟩))
  | next =>
    simp only [hostMove, State.toNext]
    split
    · split
      · exact hend rfl ‹_› ‹_›
      · exact hframe rfl ‹_› ‹_›
    · exact hnone (.inr (.inr ⟨rfl, ‹_›⟩))
  | setLenient b => exact hlenient b rfl
  | setInput bytes =>
    simp only [hostMove, setInput]
    split
    · exact hinput bytes rfl ‹_›
    · exact hchanged bytes rfl ‹_›
  | wait => exact hnone (.inl rfl)

/-- What a step can do: run the element under way, before or after a `wait` is taken off the host's list, or
take the host's pending action. -/
theorem step_elim
    (hown : s.pendingAction = none → P (runElement s))
    (hwait : s.pendingAction = some .wait → P (runElement s.popHost))
    (hhost : ∀ a, s.pendingAction = some a → a ≠ .wait → P (hostMove a s.popHost)) : P (step s) := by
  unfold step
  split
  · exact hown ‹_›
  · exact hwait ‹_›
  · rename_i a hne ha
    exact hhost a ha hne

/-- The host acts at a boundary only. -/
theorem pendingAction_some {a : HostAction} (h : s.pendingAction = some a) :
    s.atBoundary = true ∧ ∃ rest, s.host = a :: rest := by
  unfold State.pendingAction at h
  split at h
  · refine ⟨‹_›, s.host.tail, ?_⟩
    cases hs : s.host with
    | nil => simp [hs] at h
    | cons b rest => simpa [hs] using h
  · cases h

theorem pendingAction_none_of_elem (h : s.atBoundary = false) : s.pendingAction = none := by
  rw [State.pendingAction, h]; rfl

end Machine

end Sys2Proof
end

