-- ==== Sys2Proof/Machine/Assembler.lean ====
section
/-! DEFINITION. The textual form of the test vectors (30 R91, R92), as the stream bits its lines stand for. It is no
part of the machine: no step reads it. A line is written as data; its operands are those of the rule, numbers as
naturals. -/

namespace Sys2Proof.Machine

/-- A line of a program: an element (30 R91), or a pseudo-line (30 R92). Where R92 lets an operand be left out
(`bytes=`, `bits=`) or be `auto`, it is an option. -/
inductive Line where
  | sig
  | mbh (last : Bool) (blockType length : Nat)
  | si (min max fmin fmax rate ch bps total hash : Nat)
  | body (bytes : List Byte)
  | fh (strat : Bool) (bs sr ca ss : Nat)
  | idx (v : Nat) (bytes : Option Nat)
  | xbs8 (v : Nat)
  | xbs16 (v : Nat)
  | xsr8k (v : Nat)
  | xsr16 (v : Nat)
  | xsr16t (v : Nat)
  | crc8 (v : Option Nat)
  | sfh (subframeType : Nat) (w : Bool)
  | wasted (k : Nat)
  | sample (width : Nat) (v : Int)
  | pad (bit : Option Bool)
  | crc16 (v : Option Nat)
  | raw (bits : Bits)
  | verbatim (wasted width : Nat) (samples : List Int)
  | siBlock (last : Bool) (min max fmin fmax rate ch bps total hash : Nat)
  deriving DecidableEq, Repr

/-- What has been emitted: the bits, and how many of them stand before the last `FH`. -/
structure Emitted where
  bits : Bits
  fh   : Nat
  deriving DecidableEq, Repr

/-- The bytes of a run of whole bytes. -/
def byteRun (bits : Bits) : List Byte :=
  (List.range (bits.length / 8)).map fun i => (getField 8 (bits.drop (8 * i))).1

/-- The bytes emitted since the last `FH` (30 R92), over which `auto` takes a checksum. DESIGN CHOICE (log 24): before
the first `FH` they count from the start of the program, they are cut from the first bit of the `FH` on wherever it
stands, and an incomplete byte at the end is left out; the rule speaks of none of these cases. -/
def Emitted.sinceFh (e : Emitted) : List Byte := byteRun (e.bits.drop e.fh)

/-- Emit more bits. -/
def Emitted.put (e : Emitted) (bits : Bits) : Emitted := { e with bits := e.bits ++ bits }

/-- The smallest number of bytes whose form holds the index `v` (30 R76, R92). -/
def idxBytes (v : Nat) : Nat :=
  if v < 2 ^ 7 then 1 else ((List.range 7).find? fun n => 2 ≤ n && v < 2 ^ (5 * n + 1)).getD 7

/-- The `n`-byte form of the index `v` (30 R76). DESIGN CHOICE (log 23): where `v` is too large for the form, its low
data bits fill it (the low 7 bits of `v` for one byte, whose first bit stays 0), and a form of 0 bytes is taken as
one of 1, of more than 7 by the formula as it stands; the notation is silent on these (30 R91). -/
def idxBits (v n : Nat) : Bits :=
  if n = 1 then [false] ++ putBits 7 v
  else
    List.replicate n true ++ [false] ++ putBits (7 - n) (v / 64 ^ (n - 1)) ++
      (List.range (n - 1)).flatMap fun i => [true, false] ++ putBits 6 (v / 64 ^ (n - 2 - i))

/-- The 8 bits of a subframe header with zero bit 0 (30 R80). -/
def sfhBits (t : Nat) (w : Bool) : Bits := [false] ++ putBits 6 t ++ [w]

/-- The unary code of the count `k`, 1 or more (30 R81). -/
def wastedBits (k : Nat) : Bits := List.replicate (k - 1) false ++ [true]

/-- A sample as `n` bits of two's complement (30 R82). -/
def sampleBits (n : Nat) (v : Int) : Bits := putBits n (v % (2 ^ n : Nat)).toNat

/-- The bits of `SI` (30 R74, R91). -/
def siBits (min max fmin fmax rate ch bps total hash : Nat) : Bits :=
  putBits 16 min ++ putBits 16 max ++ putBits 24 fmin ++ putBits 24 fmax ++ putBits 20 rate ++
    putBits 3 (ch - 1) ++ putBits 5 (bps - 1) ++ putBits 36 total ++ putBits 128 hash

/-- The bits of `MBH` (30 R72). -/
def mbhBits (last : Bool) (t n : Nat) : Bits := [last] ++ putBits 7 t ++ putBits 24 n

/-- Emit one line (30 R91, R92), with the default parameters for the constants a line stands for. DESIGN CHOICE (log
23): an operand that does not fit its field is cut to the field's low bits, `ch=0`, `bps=0` and `WASTED 0` are taken
as 1, `bytes=0` is the one-byte form, and `bytes=` above 7 puts the form's formula to use as it stands (`idxBits`);
the rule speaks of none of these. -/
def Line.emit (e : Emitted) : Line → Emitted
  | .sig => e.put (putField sigWord)
  | .mbh last t n => e.put (mbhBits last t n)
  | .si min max fmin fmax rate ch bps total hash => e.put (siBits min max fmin fmax rate ch bps total hash)
  | .body bytes => e.put (bytesBits bytes)
  | .fh strat bs sr ca ss =>
    { e.put (putField sync14 ++ [false, strat] ++ putBits 4 bs ++ putBits 4 sr ++ putBits 4 ca ++ putBits 3 ss ++
        [false]) with fh := e.bits.length }
  | .idx v bytes => e.put (idxBits v (bytes.getD (idxBytes v)))
  | .xbs8 v => e.put (putBits 8 v)
  | .xbs16 v => e.put (putBits 16 v)
  | .xsr8k v => e.put (putBits 8 v)
  | .xsr16 v => e.put (putBits 16 v)
  | .xsr16t v => e.put (putBits 16 v)
  | .crc8 v => e.put (putBits 8 (v.getD (Sys2Proof.Machine.crc8 crc8Default e.sinceFh).toNat))
  | .sfh t w => e.put (sfhBits t w)
  | .wasted k => e.put (wastedBits k)
  | .sample n v => e.put (sampleBits n v)
  | .pad bit => e.put (List.replicate ((8 - e.bits.length % 8) % 8) (bit.getD false))
  | .crc16 v => e.put (putBits 16 (v.getD (Sys2Proof.Machine.crc16 crc16Default e.sinceFh).toNat))
  | .raw bits => e.put bits
  | .verbatim k n samples =>
    e.put (sfhBits 1 (0 < k) ++ (if 0 < k then wastedBits k else []) ++ samples.flatMap (sampleBits n))
  | .siBlock last min max fmin fmax rate ch bps total hash =>
    e.put (mbhBits last 0 34 ++ siBits min max fmin fmax rate ch bps total hash)

/-- The bytes of a program; bits after the last whole byte are left out (DESIGN CHOICE, log 24). -/
def assemble (program : List Line) : List Byte :=
  byteRun (program.foldl Line.emit { bits := [], fh := 0 }).bits

end Sys2Proof.Machine
end

