-- ==== Sys2Proof/Tests/Slice0.lean ====
section
/-! SUPPORT. Tests: ill-formed terms are refused, words written out from spec/30 decode to their elements, one
step has the effect that spec/95_test_vectors.md states, and the hypotheses of every obligation are met by a
concrete state, each clause at a boundary of its range. -/

open Sys2Proof Sys2Proof.Machine

namespace Sys2Proof.Tests

/-- A state before the element `e` with `bytes` as the input, at stream bit `cur`. -/
def before (e : Elem) (bytes : List Byte) (cur : Nat := 0) : State :=
  { State.reset with
    elem := e, phase := Elem.phase e .frame, cur := cur, mem := Memory.ofBytes 0 bytes, len := bytes.length }

/-- A state before the element `e` with `n` bits left of an input of zeros. -/
def left (e : Elem) (n : Nat) : State :=
  { State.reset with elem := e, phase := Elem.phase e .frame, cur := 8 * ((n + 7) / 8) - n, len := (n + 7) / 8 }

/-- A field of the next state, where there is one. -/
def look {α : Type} (r : Res) (f : State → α) : Option α :=
  match r with
  | .next s => some (f s)
  | .fault _ | .refused _ => none

/-- The failure a step raises: its code and its offset, as `ERR`, `ERR_OFF` show them. -/
def failure (r : Res) : Option (Phase × Nat × Nat) := look r fun s => (s.phase, s.err.toNat, s.errOff)

/-- The bits decode to the instruction, with nothing left over. -/
def reads (e : Elem) (w : Nat) (bs : Bits) (i : Instr) : Bool :=
  match decode defaultParams e w bs with
  | .ok (j, rest) => j == i && rest == []
  | .error _ => false

/-- The row of a code stands for the code's bits. -/
def rows (e : Elem) (l : List (Bits × Instr)) : Bool := l.all fun p => reads e 0 p.1 p.2

/-! ## Ill-formed terms -/

theorem test_illFormed_mbhOther : (Instr.mbhOther true 0 34).wellFormed defaultParams = false := by decide
theorem test_illFormed_wasted : (Instr.wasted 0).wellFormed defaultParams = false := by decide
theorem test_illFormed_sample_narrow : (Instr.sample 0 0).wellFormed defaultParams = false := by decide
theorem test_illFormed_sample_wide : (Instr.sample 37 0).wellFormed defaultParams = false := by decide
theorem test_illFormed_sample_value : (Instr.sample 4 16).wellFormed defaultParams = false := by decide
theorem test_illFormed_pad : (Instr.pad (List.replicate 8 false)).wellFormed defaultParams = false := by decide
theorem test_wellFormed_bounds :
    let p := defaultParams
    (Instr.mbhOther true 1 0).wellFormed p ∧ (Instr.wasted 1).wellFormed p ∧ (Instr.sample 1 1).wellFormed p ∧
      (Instr.sample 36 (-1)).wellFormed p ∧ (Instr.pad (List.replicate 7 true)).wellFormed p := by decide

/-- The illegal encodings of 30 R88 that the decoder still reads: wrong signature, sync, zero bits, `IDX.CONT`. -/
theorem test_illegal_encodings :
    let p := defaultParams
    (Instr.sig 0x464C4143).matchesRow p = false ∧ (Instr.sig 0x664C6143).matchesRow p = true ∧
    (Instr.fhWord 0x3FFC false false 6 0 1 0 false).matchesRow p = false ∧
    (Instr.fhWord 0x3FFE true false 6 0 1 0 false).matchesRow p = false ∧
    (Instr.fhWord 0x3FFE false false 6 0 1 0 true).matchesRow p = false ∧
    (Instr.fhWord 0x3FFE false true 6 0 1 0 false).matchesRow p = true ∧
    (Instr.idxCont 0b11 0).matchesRow p = false ∧ (Instr.idxCont 0b10 0).matchesRow p = true := by decide

theorem test_decoder_refuses :
    let p := defaultParams
    decode p .rest 0 [true] = .error .noElement ∧ decode p .sig 0 (List.replicate 31 true) = .error .cutShort ∧
    decode p .wasted 0 [false, false] = .error .cutShort := by decide

/-! ## Decoding: a word of every constructor, from spec/30 -/

/-- 30 R71, R72, R73, the examples of 41 R122 and R126. -/
theorem test_decode_chain :
    reads .sig 0 (bytesBits [0x66, 0x4C, 0x61, 0x43]) (.sig 0x664C6143) ∧
    reads .mbh 0 (bytesBits [0x80, 0x00, 0x00, 0x22]) (.mbhSi true 34) ∧
    reads .mbh 0 (bytesBits [0x00, 0x00, 0x00, 0x21]) (.mbhSi false 33) ∧
    reads .mbh 0 (bytesBits [0x84, 0x00, 0x01, 0x05]) (.mbhOther true 4 261) ∧
    reads .mbBody 0 [] .mbBody := by decide

/-- 30 R74, the record of V-SI-1. -/
theorem test_decode_siBody :
    reads .siBody 0 (bytesBits
      ([0x10, 0x00, 0x12, 0x00, 0x00, 0x04, 0xD2, 0x00, 0x38, 0xE7, 0x17, 0x70, 0x0F, 0x7F, 0xFF, 0xFF, 0xFF, 0xFF] ++
       [0xDE, 0xAD, 0xBE, 0xEF, 0x00, 0x11, 0x22, 0x33, 0x44, 0x55, 0x66, 0x77, 0x88, 0x99, 0xAA, 0xBB]))
      (.siBody 4096 4608 1234 14567 96000 7 23 68719476735 0xDEADBEEF00112233445566778899AABB) := by decide +kernel

/-- 30 R75, DOC0's example `FF F8 60 10` and the longest header of V-FH-20. -/
theorem test_decode_fhWord :
    reads .fhWord 0 (bytesBits [0xFF, 0xF8, 0x60, 0x10]) (.fhWord 0x3FFE false false 6 0 1 0 false) ∧
    reads .fhWord 0 (bytesBits [0xFF, 0xF9, 0x7D, 0xAC]) (.fhWord 0x3FFE false true 7 13 10 6 false) ∧
    reads .fhWord 0 (bytesBits [0xFF, 0xFA, 0xC9, 0x19]) (.fhWord 0x3FFE true false 12 9 1 4 true) := by decide

/-- 30 R87, 43 R170. -/
theorem test_decode_blockSizeCodes :
    rows .bsCode ([([false, false, false, false], .bs0000), ([false, false, false, true], .bs0001),
      ([false, false, true, false], .bs0010), ([false, false, true, true], .bs0011),
      ([false, true, false, false], .bs0100), ([false, true, false, true], .bs0101),
      ([false, true, true, false], .bs0110), ([false, true, true, true], .bs0111)] ++
      [([true, false, false, false], .bs1000), ([true, false, false, true], .bs1001),
      ([true, false, true, false], .bs1010), ([true, false, true, true], .bs1011),
      ([true, true, false, false], .bs1100), ([true, true, false, true], .bs1101),
      ([true, true, true, false], .bs1110), ([true, true, true, true], .bs1111)]) := by decide

/-- 30 R87, 43 R176. -/
theorem test_decode_sampleRateCodes :
    rows .srCode ([([false, false, false, false], .sr0000), ([false, false, false, true], .sr0001),
      ([false, false, true, false], .sr0010), ([false, false, true, true], .sr0011),
      ([false, true, false, false], .sr0100), ([false, true, false, true], .sr0101),
      ([false, true, true, false], .sr0110), ([false, true, true, true], .sr0111)] ++
      [([true, false, false, false], .sr1000), ([true, false, false, true], .sr1001),
      ([true, false, true, false], .sr1010), ([true, false, true, true], .sr1011),
      ([true, true, false, false], .sr1100), ([true, true, false, true], .sr1101),
      ([true, true, true, false], .sr1110), ([true, true, true, true], .sr1111)]) := by decide

/-- 30 R87, 43 R182. -/
theorem test_decode_channelCodes :
    rows .caCode ([([false, false, false, false], .ca0000), ([false, false, false, true], .ca0001),
      ([false, false, true, false], .ca0010), ([false, false, true, true], .ca0011),
      ([false, true, false, false], .ca0100), ([false, true, false, true], .ca0101),
      ([false, true, true, false], .ca0110), ([false, true, true, true], .ca0111)] ++
      [([true, false, false, false], .ca1000), ([true, false, false, true], .ca1001),
      ([true, false, true, false], .ca1010), ([true, false, true, true], .ca1011),
      ([true, true, false, false], .ca1100), ([true, true, false, true], .ca1101),
      ([true, true, true, false], .ca1110), ([true, true, true, true], .ca1111)]) := by decide

/-- 30 R87, 43 R185. -/
theorem test_decode_sampleSizeCodes :
    rows .ssCode [([false, false, false], .ss000), ([false, false, true], .ss001), ([false, true, false], .ss010),
      ([false, true, true], .ss011), ([true, false, false], .ss100), ([true, false, true], .ss101),
      ([true, true, false], .ss110), ([true, true, true], .ss111)] := by decide

/-- 30 R76, the first bytes of V-IDX-2, 4, 8, 10, 12, 14, 16, 21 and 22, and continuation bytes. -/
theorem test_decode_index :
    rows .idx [(bytesBits [0x7F], .idx1 0x7F), (bytesBits [0xDF], .idx2 0x1F), (bytesBits [0xEF], .idx3 0xF),
      (bytesBits [0xF7], .idx4 7), (bytesBits [0xFB], .idx5 3), (bytesBits [0xFD], .idx6 1),
      (bytesBits [0xFE], .idx7), (bytesBits [0xBF], .idxBad10 0x3F), (bytesBits [0xFF], .idxBadFF)] ∧
    rows .idxCont [(bytesBits [0xBF], .idxCont 0b10 0x3F), (bytesBits [0xC0], .idxCont 0b11 0)] := by decide

/-- 30 R77 to R79, R84, the fields of V-FH-6, 7, 12, 13, 14 and of P1. -/
theorem test_decode_escapes :
    reads .xbs8 0 (bytesBits [0x7F]) (.xbs8 0x7F) ∧ reads .xbs16 0 (bytesBits [0x12, 0x33]) (.xbs16 0x1233) ∧
    reads .xsr8k 0 (bytesBits [0x60]) (.xsr8k 96) ∧ reads .xsr16 0 (bytesBits [0xAC, 0x44]) (.xsr16 44100) ∧
    reads .xsr16t 0 (bytesBits [0x4B, 0x00]) (.xsr16t 19200) ∧ reads .crc8 0 (bytesBits [0x48]) (.crc8 0x48) ∧
    reads .crc16 0 (bytesBits [0x76, 0xBB]) (.crc16 0x76BB) := by decide

/-- 30 R80, the headers of V-SF-1 to V-SF-5. -/
theorem test_decode_sfh :
    rows .sfh [(bytesBits [0x00], .sfhConstant false), (bytesBits [0x03], .sfhVerbatim true),
      (bytesBits [0x06], .sfhRsvd00001x 1 false), (bytesBits [0x0E], .sfhRsvd0001xx 3 false),
      (bytesBits [0x1E], .sfhFixed 7 false), (bytesBits [0x3E], .sfhRsvd01xxxx 15 false),
      (bytesBits [0x7E], .sfhLpc 31 false), (bytesBits [0x82], .sfhRsvdZ 1 false)] := by decide

/-- 30 R81 to R83: the unary codes of DOC0 (A7), the 14-bit sample of P1, a padding of 6 bits. -/
theorem test_decode_bitElements :
    reads .wasted 0 [false, true] (.wasted 2) ∧ reads .wasted 0 [false, false, false, true] (.wasted 4) ∧
    reads .sample 14 (putBits 14 0x18FD) (.sample 14 0x18FD) ∧
    reads .pad 6 [true, false, true, true, false, false] (.pad [true, false, true, true, false, false]) ∧
    reads .pad 0 [] (.pad []) := by decide

/-- The numbering of spec/opcode_table.json, and a step that runs such a word first (log 15, log 16). -/
theorem test_tableWord :
    decodeTableWord 32 0x664C6143 = some (.sig 0x664C6143) ∧
    decodeTableWord 32 0xFFF86010 = some (.fhWord 0x3FFE false false 6 0 1 0 false) ∧
    decodeTableWord 32 0x00006000 = some .bs0110 ∧ decodeTableWord 16 0x80C2 = some (.idx2 2) ∧
    decodeTableWord 8 0x02 = some (.sfhVerbatim false) := by decide

theorem test_fetchWord :
    fetch (State.reset.withFetchWord 32 0x664C6143) = some (.sig 0x664C6143) ∧
    fetch (State.reset.withFetchWord 32 0x00006000) = some .bs0110 ∧
    fetch (State.reset.withFetchWord 16 0x80C2) = some (.idx2 2) ∧
    look (step (State.reset.withFetchWord 32 0x664C6143)) (fun s => (s.cur, s.phase)) = some (32, .mbh) := by decide

/-! ## One step, against spec/95 -/

/-- V-MD-3, V-MD-2. -/
theorem test_sig :
    failure (exec (.sig 0x664C6163) (before .sig [0x66, 0x4C, 0x61, 0x63])) = some (.err, 1, 0) ∧
    failure (exec (.sig 0x664C6100) (before .sig [0x66, 0x4C, 0x61])) = some (.err, 10, 0) := by decide

/-- V-MD-6, V-MD-4. -/
theorem test_mbhSi :
    failure (exec (.mbhSi true 33) { left .mbh 32 with cur := 32, len := 8 }) = some (.err, 3, 5) ∧
    failure (exec (.mbhSi true 34) { left .mbh 0 with cur := 32, len := 4 }) = some (.err, 10, 4) := by decide

/-- V-MD-5b: the type is refused before the length is read; V-MD-12: a later block of type 4 is taken. -/
theorem test_mbhOther :
    failure (exec (.mbhOther false 4 0) { left .mbh 8 with cur := 32, len := 5 }) = some (.err, 2, 4) ∧
    look (exec (.mbhOther false 4 5) { left .mbh 32 with first := false }) (fun s => (s.mb.length, s.elem))
      = some (5, .mbBody) := by decide

/-- V-MD-10: the `StreamInfo` event. V-SI-3: a zero rate. -/
theorem test_siBody :
    look (exec (.siBody 4096 4096 0 0 44100 1 15 0 0) (left .siBody 272)) (fun s => (s.out, s.phase, s.siValid)) =
      some ([.streamInfo ⟨4096, 4096, 0, 0, 44100, 2, 16, 0, 0⟩], .frame, true) ∧
    failure (exec (.siBody 16 16 0 0 0 1 15 0 0) { left .siBody 272 with cur := 64, len := 42 })
      = some (.err, 3, 18) := by decide

/-- V-MD-12, the skip; V-MD-8, a skip that does not fit. -/
theorem test_mbBody :
    look (exec .mbBody { left .mbBody 104 with cur := 46 * 8, len := 59, mb := ⟨false, 4, 5⟩ }) (·.cur)
      = some (51 * 8) ∧
    failure (exec .mbBody { left .mbBody 40 with cur := 46 * 8, len := 51, mb := ⟨true, 1, 10⟩ })
      = some (.err, 10, 46) := by decide

/-- P1's header, and V-FH-34 (`z1`). -/
theorem test_fhWord :
    look (exec (.fhWord 0x3FFE false false 6 0 1 0 false) (left .fhWord 32))
      (fun s => (s.fh.blockingStrategyFixed, s.fh.channelAssignmentCode, s.elem)) = some (true, 1, .idx) ∧
    failure (exec (.fhWord 0x3FFE true false 6 0 1 0 false) { left .fhWord 16 with cur := 336, len := 44 })
      = some (.err, 4, 43) := by decide

/-- V-FH-8e, V-FH-0 (the header at byte 42). -/
theorem test_blockSizeCodes :
    look (exec .bs1100 (left .bsCode 0)) (·.fh.blockSize) = some 4096 ∧
    failure (exec .bs0000 { left .bsCode 0 with fh := { FrameHeader.reset with start := 42 } })
      = some (.err, 4, 44) := by decide

/-- V-FH-10, V-FH-11i. -/
theorem test_sampleRateCodes :
    look (exec .sr0000 { left .srCode 0 with si := { StreamInfo.reset with sampleRateHz := 44100 } })
      (·.fh.sampleRateHz) = some 44100 ∧
    look (exec .sr1001 (left .srCode 0)) (·.fh.sampleRateHz) = some 44100 := by decide

/-- V-FH-16h, V-FH-16l. -/
theorem test_channelCodes :
    look (exec .ca0111 (left .caCode 0)) (·.fh.channelCount) = some 8 ∧
    failure (exec .ca1011 { left .caCode 0 with fh := { FrameHeader.reset with start := 42 } })
      = some (.err, 4, 45) := by decide

/-- V-FH-17a, V-FH-17g. -/
theorem test_sampleSizeCodes :
    look (exec .ss000 { left .ssCode 0 with si := { StreamInfo.reset with bitsPerSample := 16 } })
      (·.fh.sampleSize) = some 16 ∧
    look (exec .ss110 (left .ssCode 0)) (·.fh.sampleSize) = some 24 := by decide

/-- V-IDX-2, V-IDX-22, and the two bytes of V-IDX-3. -/
theorem test_index :
    look (exec (.idx1 127) (left .idx 8)) (fun s => (s.fh.frameOrSampleIndex, s.fh.indexBytes)) = some (127, 1) ∧
    failure (exec .idxBadFF { left .idx 8 with cur := 368, len := 47 }) = some (.err, 5, 46) ∧
    look (exec (.idx2 2) (left .idx 8)) (fun s => (s.idxAcc, s.idxLeft, s.elem)) = some (2, 1, .idxCont) ∧
    look (exec (.idxCont 0b10 0) { left .idxCont 8 with idxAcc := 2, idxLeft := 1, idxLen := 2 })
      (fun s => (s.fh.frameOrSampleIndex, s.fh.indexBytes)) = some (128, 2) := by decide

/-- V-IDX-23 and V-IDX-28: a bad or a missing second byte. -/
theorem test_idxCont :
    failure (exec (.idxCont 0 0) { left .idxCont 8 with cur := 8, len := 2 }) = some (.err, 5, 1) ∧
    failure (exec (.idxCont 0 0) { left .idxCont 0 with cur := 8, len := 1 }) = some (.err, 10, 1) := by decide

/-- V-FH-21, V-FH-7, V-FH-20: block sizes 256, 4660, 65536. -/
theorem test_blockSizeFields :
    look (exec (.xbs8 0xFF) (left .xbs8 8)) (·.fh.blockSize) = some 256 ∧
    look (exec (.xbs16 0x1233) (left .xbs16 16)) (·.fh.blockSize) = some 4660 ∧
    look (exec (.xbs16 0xFFFF) (left .xbs16 16)) (·.fh.blockSize) = some 65536 := by decide

/-- V-FH-12, V-FH-13, V-FH-22. -/
theorem test_sampleRateFields :
    look (exec (.xsr8k 0x60) (left .xsr8k 8)) (·.fh.sampleRateHz) = some 96000 ∧
    look (exec (.xsr16 0xAC44) (left .xsr16 16)) (·.fh.sampleRateHz) = some 44100 ∧
    look (exec (.xsr16t 0xFFFF) (left .xsr16t 16)) (·.fh.sampleRateHz) = some 655350 := by decide

/-- P1's header `FF F8 60 10 00 00` before its CRC-8. -/
def header : State :=
  { before .crc8 [0xFF, 0xF8, 0x60, 0x10, 0x00, 0x00, 0x48] 48 with fh := { FrameHeader.reset with start := 0 } }

/-- P1, and V-FH-9 with byte 48 corrupted, under the strict and the lenient policy. -/
theorem test_crc8 :
    look (exec (.crc8 0x48) header) (fun s => (s.fh.headerCrcOk, s.elem)) = some (true, .sfh) ∧
    failure (exec (.crc8 0x49) header) = some (.err, 6, 6) ∧
    look (exec (.crc8 0x49) { header with policy := true }) (fun s => (s.fh.headerCrcOk, s.out))
      = some (false, [.report 6 6]) := by decide +kernel

/-- V-CRC-1 to 8: the CRC-8. -/
theorem test_crc8_vectors :
    let c := crc8 defaultParams.crc8
    c [] = 0 ∧ c [0x01] = 0x07 ∧ c [0x80] = 0x89 ∧ c [0xFF] = 0xF3 ∧
    c [0x31, 0x32, 0x33, 0x34, 0x35, 0x36, 0x37, 0x38, 0x39] = 0xF4 ∧
    c [0xFF, 0xF8, 0x60, 0x10, 0x00, 0x00] = 0x48 ∧ c [0xFF, 0xF8, 0x60, 0x10, 0x00, 0x00, 0x48] = 0 := by
  decide +kernel

/-- V-CRC-3 to 10: the CRC-16. -/
theorem test_crc16_vectors :
    let c := crc16 defaultParams.crc16
    c [0x01] = 0x8005 ∧ c [0x80] = 0x8303 ∧ c [0xFF] = 0x0202 ∧
    c [0x31, 0x32, 0x33, 0x34, 0x35, 0x36, 0x37, 0x38, 0x39] = 0xFEE8 ∧
    c [0xFF, 0xF8, 0x60, 0x10, 0x00, 0x00, 0x48, 0x03, 0x58, 0xFD, 0x03, 0x16, 0x3F] = 0x76BB := by decide +kernel

/-- Other conventions than the default: the check values of CRC-16/ARC and CRC-16/MODBUS (general knowledge). -/
theorem test_crc_parameters :
    crc16 { poly := 0x8005, init := 0, lsbFirst := true, xorOut := 0 }
      [0x31, 0x32, 0x33, 0x34, 0x35, 0x36, 0x37, 0x38, 0x39] = 0xBB3D ∧
    crc16 { poly := 0x8005, init := 0xFFFF, lsbFirst := true, xorOut := 0 }
      [0x31, 0x32, 0x33, 0x34, 0x35, 0x36, 0x37, 0x38, 0x39] = 0x4B37 := by decide +kernel

/-- 00 R8, 92 D33: the machine takes its parameters as they are given. -/
theorem test_parameters :
    let p := { defaultParams with sig := 0x01020304, tStreamInfo := 5, bs := Vector.replicate 16 (.literal 7) }
    failure (exec (.sig 0x664C6143) { left .sig 32 with params := p }) = some (.err, 1, 0) ∧
    look (exec (.sig 0x01020304) { left .sig 32 with params := p }) (·.phase) = some .mbh ∧
    fetch { before .mbh [0x85, 0x00, 0x00, 0x22] with params := p } = some (.mbhSi true 34) ∧
    look (exec .bs0000 { left .bsCode 0 with params := p }) (·.fh.blockSize) = some 7 := by decide

/-- A state inside the first subframe, mono, 8 bits, block size 1 (`M8` of spec/95 B.7), with `n` bits left. -/
def mono (e : Elem) (n : Nat) : State :=
  { left e n with
    fh := { FrameHeader.reset with channelAssignmentCode := 0, channelCount := 1, sampleSize := 8, blockSize := 1 } }

/-- V-SF-1, V-SF-2, V-SF-3: the refused types, a byte at address 0. -/
theorem test_sfh_refused :
    ([Instr.sfhConstant false, .sfhFixed 0 false, .sfhFixed 7 true, .sfhLpc 0 false, .sfhLpc 31 true].all fun i =>
      failure (exec i (mono .sfh 8)) == some (.err, 9, 0)) ∧
    ([Instr.sfhRsvd00001x 0 false, .sfhRsvd0001xx 3 true, .sfhRsvd01xxxx 15 false, .sfhRsvdZ 1 false].all fun i =>
      failure (exec i (mono .sfh 8)) == some (.err, 8, 0)) := by decide

/-- V-SF-4 and V-SF-5: the header with and without the wasted-bits flag. -/
theorem test_sfh_verbatim :
    look (exec (.sfhVerbatim false) (mono .sfh 8)) (fun s => (s.sf[0].width, s.sf[0].wastedBitCount, s.elem))
      = some (8, 0, .sample) ∧
    look (exec (.sfhVerbatim true) (mono .sfh 8)) (fun s => (s.sf[0].wastedBitsPresent, s.elem))
      = some (true, .wasted) := by decide

/-- V-SF-6: count 7, width 1. V-SF-7: count 8, width 0, at the byte where the code starts. -/
theorem test_wasted :
    look (exec (.wasted 7) (mono .wasted 8)) (fun s => (s.sf[0].width, s.sf[0].wastedBitCount)) = some (1, 7) ∧
    failure (exec (.wasted 8) (mono .wasted 8)) = some (.err, 4, 0) := by decide

/-- V-SF-5 (-64 in 7 bits) and V-SF-4 (-1 in 8 bits), the last sample of a mono frame. -/
theorem test_sample :
    look (exec (.sample 7 0x40) (mono .sample 7)) (fun s => (s.sf[0].samples, s.ch, s.elem))
      = some ([-64], 1, .pad) ∧
    look (exec (.sample 8 0xFF) (mono .sample 8)) (·.sf[0].samples) = some [-1] := by decide

/-- V-SF-12 to V-SF-14: which channel is one bit wider. -/
theorem test_sideChannel :
    let p := defaultParams
    (side (caTable p 0b1000) 0, side (caTable p 0b1000) 1) = (0, 1) ∧
    (side (caTable p 0b1001) 0, side (caTable p 0b1001) 1) = (1, 0) ∧
    (side (caTable p 0b1010) 0, side (caTable p 0b1010) 1) = (0, 1) ∧ side (caTable p 0b0001) 1 = 0 := by decide

/-- V-BR-13 and V-BR-14. -/
theorem test_pad :
    look (exec (.pad []) { left .pad 0 with cur := 90, len := 12 }) (·.cur) = some 96 ∧
    look (exec (.pad []) { left .pad 0 with cur := 96, len := 12 }) (·.cur) = some 96 := by decide

/-- P1's frame before its footer. -/
def footer : State :=
  { before .crc16 ([0xFF, 0xF8, 0x60, 0x10, 0x00, 0x00, 0x48] ++ [0x03, 0x58, 0xFD, 0x03, 0x16, 0x3F] ++ [0x76, 0xBB])
      104 with fh := { FrameHeader.reset with start := 0 } }

/-- P1's footer; and a wrong one under both policies. -/
theorem test_crc16 :
    look (exec (.crc16 0x76BB) footer) (fun s => (s.fr.footerCrcOk, s.phase, s.out.length)) = some (true, .frame, 1) ∧
    failure (exec (.crc16 0xED00) footer) = some (.err, 7, 13) ∧
    look (exec (.crc16 0xED00) { footer with policy := true }) (fun s => (s.out.head?, s.out.length))
      = some (some (.report 7 13), 2) := by decide +kernel

/-- 48 R271, R275, R277, 70 R340: the host's moves. -/
theorem test_host :
    look (step { State.reset with host := [.start], lenient := true }) (fun s => (s.policy, s.phase, s.elem))
      = some (true, .sig, .sig) ∧
    look (step { left .rest 0 with host := [.next] }) (fun s => (s.phase, s.out)) = some (.done, [.endOfStream]) ∧
    look (step { left .rest 8 with host := [.next] }) (·.elem) = some .fhWord ∧
    look (step { State.reset with host := [.next] }) (·.phase) = some .idle ∧
    look (step { left .rest 8 with host := [.reset], err := 4, phase := .err }) (fun s => (s.phase, s.err, s.len))
      = some (.idle, 0, 1) := by decide

theorem test_setInput :
    look (step { State.reset with host := [.setInput [0x66, 0x00, 0x61]] }) (fun s => (s.mem, s.len))
      = some ([(0, 0x66), (2, 0x61)], 3) ∧
    step { left .rest 8 with host := [.setInput []] } = .refused .inputChanged := by exact ⟨by decide, rfl⟩

/-- P1 of spec/95 C.1, as its source and as its bytes. -/
def p1 : List Line :=
  [.sig, .siBlock true 1 1 15 15 44100 2 16 1 0, .fh false 6 0 1 0, .idx 0 none, .xbs8 0, .crc8 none,
    .verbatim 2 14 [6397], .verbatim 4 12 [1599], .pad none, .crc16 none]

theorem test_assemble_p1 :
    assemble p1 =
      [0x66, 0x4C, 0x61, 0x43, 0x80, 0x00, 0x00, 0x22] ++
      [0x00, 0x01, 0x00, 0x01, 0x00, 0x00, 0x0F, 0x00, 0x00, 0x0F, 0x0A, 0xC4, 0x42, 0xF0, 0x00, 0x00] ++
      [0x00, 0x01] ++ List.replicate 16 0 ++
      [0xFF, 0xF8, 0x60, 0x10, 0x00, 0x00, 0x48, 0x03, 0x58, 0xFD, 0x03, 0x16, 0x3F, 0x76, 0xBB] := by decide +kernel

/-- Frame 2 of P2 (spec/95 C.2), and the other lines of 30 R91. -/
theorem test_assemble_lines :
    assemble [.fh true 6 14 8 2, .idx 3 none, .xbs8 1, .xsr16t 4410, .crc8 none, .verbatim 0 12 [-2048, 2047],
        .sfh 1 true, .wasted 3, .sample 10 (-1), .sample 10 341, .pad none, .crc16 none] =
      [0xFF, 0xF9, 0x6E, 0x84, 0x03, 0x01, 0x11, 0x3A, 0x0A, 0x02, 0x80, 0x07, 0xFF, 0x03, 0x3F, 0xFA, 0xAA, 0xC4,
        0x21] ∧
    assemble [.mbh false 4 5, .body [0x68, 0x65], .xbs16 2, .xsr8k 48, .xsr16 44100, .crc8 (some 0x62), .raw [true],
        .pad (some true), .crc16 (some 0x3706)] =
      [0x04, 0x00, 0x00, 0x05, 0x68, 0x65, 0x00, 0x02, 0x30, 0xAC, 0x44, 0x62, 0xFF, 0x37, 0x06] ∧
    assemble [.idx 127 none, .idx 128 none, .idx 0 (some 2), .idx 68719476735 none, .idx 2047 (some 3)] =
      [0x7F, 0xC2, 0x80, 0xC0, 0x80, 0xFE, 0xBF, 0xBF, 0xBF, 0xBF, 0xBF, 0xBF, 0xE0, 0x9F, 0xBF] := by decide +kernel

/-! ## Witnesses: the hypotheses of the obligations, clause by clause

Each `witness_<name>` shows states and operands that meet the hypotheses of `Obligations.<name>`, at a boundary of
their range where they have one. -/

theorem witness_DecodeEncodeRoundTrip :
    let p := defaultParams
    (Instr.mbhOther true 1 0).wellFormed p = true ∧ (Instr.wasted 1).wellFormed p = true ∧
    (Instr.sample 36 0xFFFFFFFFF).wellFormed p = true ∧ (Instr.pad (List.replicate 7 true)).wellFormed p = true := by
  decide

theorem witness_DecodedBitsEncodeBack :
    let p := defaultParams
    decode p .sample 36 (List.replicate 37 true) = .ok (.sample 36 0xFFFFFFFFF, [true]) ∧
    decode p .sample 1 [false] = .ok (.sample 1 0, []) ∧
    decode p .pad 7 (List.replicate 7 true) = .ok (.pad (List.replicate 7 true), []) ∧
    decode p .mbBody 0 [true] = .ok (.mbBody, [true]) := by decide

theorem witness_StepRunsFetchedInstruction :
    let s := before .sig [0x66, 0x4C, 0x61, 0x43]
    decode s.params s.elem s.elemWidth s.window = .ok (.sig 0x664C6143, []) ∧ s.pendingAction = none ∧
    ({ s with host := [.wait] } : State).pendingAction = some .wait ∧
    ({ s with host := [.reset] } : State).pendingAction = some .reset ∧
    State.reset.elem = .rest ∧ State.reset.pendingAction = none := by decide

/-- A signature of which one bit is missing, completed in two ways; and a unary code that the input ends. -/
theorem witness_BitsPastTheEndNeverUsed :
    let s := { before .sig [0x66, 0x4C, 0x61, 0x43] with cur := 1 }
    let u := left .wasted 3
    decode s.params s.elem s.elemWidth (s.streamBits s.rem ++ [true]) = .ok (.sig 0xCC98C287, []) ∧
    decode s.params s.elem s.elemWidth (s.streamBits s.rem ++ [false]) = .ok (.sig 0xCC98C286, []) ∧
    decode u.params u.elem u.elemWidth (u.streamBits u.rem ++ [false, true]) = .ok (.wasted 5, []) := by decide

theorem witness_FieldsAreBigEndian :
    let s := before .idx [0x12, 0x34, 0x56] 0
    s.cur % 8 = 0 ∧ (getField 16 (s.streamBits 16)).1 = 0x1234 ∧ (getField 24 (s.streamBits 24)).1 = 0x123456 := by
  decide

theorem witness_CodeRegisterSelectsRow :
    (left .bsCode 0).elem = .bsCode ∧ (left .srCode 0).elem = .srCode ∧ (left .caCode 0).elem = .caCode ∧
    (left .ssCode 0).elem = .ssCode := by decide

theorem witness_BitReaderContracts :
    1 ≤ 36 ∧ 36 ≤ (left .sample 36).rem ∧ 1 ≤ (left .sample 1).rem ∧ (left .sample 35).rem < 36 ∧
    (left .sample 0).rem < 1 ∧ 8 * 2 ≤ (left .mbBody 16).rem ∧ (left .mbBody 15).rem < 8 * 2 ∧
    0 ≤ (left .wasted 0).rem ∧ (left .wasted 0).cur ≤ 8 * (left .wasted 0).len := by decide

theorem witness_UnaryCodeIsCounted :
    let s := before .wasted [0x01]
    s.elem = .wasted ∧ 7 < s.rem ∧ (∀ i, i < 7 → s.bitAt (s.cur + i) = false) ∧ s.bitAt (s.cur + 7) = true ∧
    (∀ i, i < (left .wasted 8).rem → (left .wasted 8).bitAt ((left .wasted 8).cur + i) = false) := by decide

theorem witness_SignatureElement :
    32 ≤ (left .sig 32).rem ∧ 0x664C6143 = (left .sig 32).params.sig ∧ 0x664C6163 ≠ (left .sig 32).params.sig ∧
    (left .sig 31).rem < 32 := by decide

theorem witness_BlockHeaderRegisters :
    (left .mbh 32).cur % 8 = 0 ∧ 32 ≤ (left .mbh 32).rem ∧ 1 ≠ (left .mbh 32).params.tStreamInfo ∧
    ({ left .mbh 32 with first := false } : State).first = false ∧
    (left .mbh 0).cur % 8 = 0 ∧ (left .mbh 0).rem < 8 ∧
    (left .mbh 8).cur % 8 = 0 ∧ 8 ≤ (left .mbh 8).rem ∧ (left .mbh 24).cur % 8 = 0 ∧ (left .mbh 24).rem < 32 := by
  decide

theorem witness_BlockHeaderRefusals :
    8 ≤ (left .mbh 8).rem ∧ 1 ≠ (left .mbh 8).params.tStreamInfo ∧ (left .mbh 8).first = true ∧
    32 ≤ (left .mbh 32).rem ∧
    (33 : BitVec 24) ≠ 34 ∧ (35 : BitVec 24) ≠ 34 := by decide

theorem witness_StreamInfoBodyDecoded :
    272 ≤ (left .siBody 272).rem ∧ (1 : BitVec 20) ≠ 0 ∧ (left .siBody 272).seenSi = 0 ∧
    (left .siBody 272).mb.isLast = true ∧
    (∀ n : BitVec 2, n = 1 ∨ n = 2 → ({ left .siBody 272 with seenSi := n, mb := ⟨false, 0, 34⟩ } : State).seenSi ≠ 0 ∧
      ({ left .siBody 272 with seenSi := n, mb := ⟨false, 0, 34⟩ } : State).mb.isLast = false) := by decide

theorem witness_StreamInfoBodyFailures :
    ([0, 8, 16, 24, 32, 48, 56, 72, 80, 96, 104, 112, 136].all fun n =>
      (left .siBody n).cur % 8 == 0 && (left .siBody n).rem == n) = true ∧
    ((List.range 16).all fun i => (left .siBody (144 + 8 * i)).rem == 144 + 8 * i) = true := by decide

theorem witness_SkippedBodyAndChainEnd :
    let s := { left .mbBody 8 with seenSi := 1 }
    8 * s.mb.length.toNat ≤ s.rem ∧ s.mb.isLast = true ∧ s.seenSi = 1 ∧
    ({ s with mb := ⟨false, 1, 1⟩ } : State).mb.isLast = false ∧ (left .mbBody 8).seenSi ≠ 1 ∧
    (left .mbBody 7).rem < 8 * (left .mbBody 7).mb.length.toNat := by decide

/-- The first and the last code that is not reserved, of each table. -/
theorem witness_FrameWordAccepted :
    let p := (left .fhWord 32).params
    32 ≤ (left .fhWord 32).rem ∧ bsTable p 0b0001 ≠ .reserved ∧ bsTable p 0b1111 ≠ .reserved ∧
    srTable p 0b0000 ≠ .reserved ∧ srTable p 0b1110 ≠ .reserved ∧ caTable p 0b0000 ≠ .reserved ∧
    caTable p 0b1010 ≠ .reserved ∧ ssTable p 0b000 ≠ .reserved ∧ ssTable p 0b110 ≠ .reserved := by decide

theorem witness_FrameWordSyncLost :
    let s := left .fhWord 14
    14 ≤ s.rem ∧ 0x3FFF ≠ s.params.sync14 ∧ 0x3FFE = s.params.sync14 ∧ 15 ≤ (left .fhWord 15).rem ∧
    32 ≤ (left .fhWord 32).rem ∧ (left .fhWord 13).rem < 14 ∧ (left .fhWord 16).cur % 8 = 0 ∧
    (left .fhWord 16).rem = 16 ∧ (left .fhWord 24).cur % 8 = 0 ∧ (left .fhWord 24).rem = 24 := by decide

/-- A reserved code of each table, and the least number of bits at which the frame word meets it. -/
theorem witness_ReservedCodesRaiseAtOnce :
    let p := (left .fhWord 20).params
    (.bs0000, 0b0000) ∈ bsCodes ∧ bsTable p 0b0000 = .reserved ∧ (.sr1111, 0b1111) ∈ srCodes ∧
    srTable p 0b1111 = .reserved ∧ (.ca1011, 0b1011) ∈ caCodes ∧ caTable p 0b1011 = .reserved ∧
    (.ss011, 0b011) ∈ ssCodes ∧ ssTable p 0b011 = .reserved ∧
    20 ≤ (left .fhWord 20).rem ∧ 24 ≤ (left .fhWord 24).rem ∧ 28 ≤ (left .fhWord 28).rem ∧
    31 ≤ (left .fhWord 31).rem := by decide

theorem witness_LiteralBlockSizes :
    (.bs1111, 0b1111) ∈ bsCodes ∧ bsTable State.reset.params 0b1111 = .literal 32768 := by decide

theorem witness_LiteralSampleRates :
    (.sr0000, 0b0000) ∈ srCodes ∧ srTable State.reset.params 0b0000 = .fromStreamInfo ∧
    (.sr1011, 0b1011) ∈ srCodes ∧ srTable State.reset.params 0b1011 = .literal 96000 := by decide

theorem witness_ChannelCounts :
    (.ca0111, 0b0111) ∈ caCodes ∧ caTable State.reset.params 0b0111 = .independent 8 ∧ (0b0111 : BitVec 4).toNat < 8 ∧
    (.ca1000, 0b1000) ∈ caCodes ∧ caTable State.reset.params 0b1000 = .leftSide ∧
    (.ca1001, 0b1001) ∈ caCodes ∧ caTable State.reset.params 0b1001 = .sideRight ∧
    (.ca1010, 0b1010) ∈ caCodes ∧ caTable State.reset.params 0b1010 = .midSide := by decide

theorem witness_SampleSizes :
    (.ss000, 0b000) ∈ ssCodes ∧ ssTable State.reset.params 0b000 = .fromStreamInfo ∧
    (.ss110, 0b110) ∈ ssCodes ∧ ssTable State.reset.params 0b110 = .literal 24 := by decide

theorem witness_BlockSizeExtra8 :
    (.bs0110, 0b0110) ∈ bsCodes ∧ bsTable State.reset.params 0b0110 = .extra8 ∧
    8 ≤ (left .xbs8 8).rem ∧ (left .xbs8 7).rem < 8 := by decide

theorem witness_ExtraBlockSize16AndRateInKHz :
    (.bs0111, 0b0111) ∈ bsCodes ∧ bsTable State.reset.params 0b0111 = .extra16 ∧
    (.sr1100, 0b1100) ∈ srCodes ∧ srTable State.reset.params 0b1100 = .extra8kHz ∧
    16 ≤ (left .xbs16 16).rem ∧ (left .xbs16 15).rem < 16 ∧ 8 ≤ (left .xsr8k 8).rem ∧ (left .xsr8k 7).rem < 8 := by
  decide

theorem witness_SampleRateExtra16 :
    (.sr1101, 0b1101) ∈ srCodes ∧ srTable State.reset.params 0b1101 = .extra16Hz ∧
    (.sr1110, 0b1110) ∈ srCodes ∧ srTable State.reset.params 0b1110 = .extra16TensHz ∧
    16 ≤ (left .xsr16 16).rem ∧ (left .xsr16t 15).rem < 16 := by decide

/-- A frame whose two escape fields are the longest, two bytes each. -/
theorem witness_EscapesAddTheirBytes :
    let s := { left .bsCode 32 with
      fh := { FrameHeader.reset with
        blockSizeCode := 0b0111, sampleRateCode := 0b1110, channelAssignmentCode := 10, sampleSizeCode := 6 } }
    s.elem = .bsCode ∧ bsTable s.params s.fh.blockSizeCode = .extra16 ∧
    srTable s.params s.fh.sampleRateCode = .extra16TensHz ∧
    caTable s.params s.fh.channelAssignmentCode ≠ .reserved ∧
    ssTable s.params s.fh.sampleSizeCode ≠ .reserved ∧ 8 * (2 + 2) ≤ s.rem := by decide

theorem witness_HeaderCrcVerdict :
    8 ≤ header.rem ∧ 1 ≤ header.fh.channelCount.toNat ∧
    0x48 = crc8 header.params.crc8 (header.bytes header.fh.start (header.cur / 8)) ∧
    0x49 ≠ crc8 header.params.crc8 (header.bytes header.fh.start (header.cur / 8)) ∧ header.policy = false ∧
    ({ header with policy := true } : State).policy = true ∧ (left .crc8 7).rem < 8 := by decide +kernel

theorem witness_IndexOneByte : 8 ≤ (left .idx 8).rem ∧ (left .idx 7).rem < 8 := by decide

theorem witness_IndexBytes :
    8 ≤ (left .idxCont 8).rem ∧ 2 ≤ ({ left .idxCont 8 with idxLeft := 2 } : State).idxLeft ∧
    ({ left .idxCont 8 with idxLeft := 1 } : State).idxLeft = 1 ∧ (0b11 : BitVec 2) ≠ 0b10 ∧
    (left .idxCont 7).rem < 8 ∧ (Instr.idxCont 0b10 0).elem = .idxCont ∧ Instr.idx7.elem = .idx := by decide

/-- `C2 80` (V-IDX-3), and the longest index. -/
theorem witness_IndexDecodesItsDataBits :
    let s := before .idx [0xC2, 0x80]
    let u := before .idx [0xFE, 0xBF, 0xBF, 0xBF, 0xBF, 0xBF, 0xBF]
    (s.elem = .idx ∧ s.cur % 8 = 0 ∧ 8 * 2 ≤ s.rem ∧ lead1 (s.streamBits 8) = 2 ∧
      (∀ i, i < 2 → 1 ≤ i → s.bitAt (s.cur + 8 * i) = true ∧ s.bitAt (s.cur + 8 * i + 1) = false)) ∧
    (u.elem = .idx ∧ u.cur % 8 = 0 ∧ 8 * 7 ≤ u.rem ∧ lead1 (u.streamBits 8) = 7 ∧
      (∀ i, i < 7 → 1 ≤ i → u.bitAt (u.cur + 8 * i) = true ∧ u.bitAt (u.cur + 8 * i + 1) = false)) := by decide

theorem witness_VerbatimHeader :
    (mono .sfh 8).ch.toNat < 8 ∧ (mono .sfh 8).sf[(mono .sfh 8).ch.toNat]? = some Subframe.reset ∧
    8 ≤ (mono .sfh 8).rem ∧ 1 ≤ (mono .sfh 8).fh.sampleSize.toNat ∧ (mono .sfh 8).fh.sampleSize.toNat ≤ 32 ∧
    (mono .sfh 8).fh.blockSize ≠ 0 ∧ (mono .sfh 0).rem < 1 ∧ 1 ≤ (mono .sfh 1).rem ∧ (mono .sfh 6).rem < 7 ∧
    (mono .sfh 7).rem = 7 ∧ ({ mono .sfh 8 with ch := 7 } : State).sf[7]? = some Subframe.reset := by decide

theorem witness_RefusedSubframes :
    (mono .sfh 7).ch.toNat < 8 ∧ 7 ≤ (mono .sfh 7).rem ∧ 1 ≤ (mono .sfh 1).rem ∧ (mono .sfh 0).rem = 0 ∧
    (mono .sfh 6).rem < 7 ∧ (Instr.sfhLpc 31 true).elem = .sfh ∧
    (∀ t v, Instr.sfhLpc 31 true ≠ .sfhRsvdZ t v) := by
  exact ⟨by decide, by decide, by decide, by decide, by decide, rfl, fun _ _ h => nomatch h⟩

/-- A mono channel of 8 bits, and the side channel of 8 + 1. -/
theorem witness_WastedBitsAndWidth :
    let s := mono .wasted 8
    let u := { mono .wasted 9 with
      fh := { (mono .wasted 9).fh with channelAssignmentCode := 0b1001, channelCount := 2 } }
    s.ch.toNat < 8 ∧ s.sf[s.ch.toNat]? = some Subframe.reset ∧ 7 ≤ s.rem ∧ 7 < s.fh.sampleSize.toNat + 0 ∧
    s.fh.sampleSize.toNat ≤ 32 ∧ s.fh.blockSize ≠ 0 ∧ s.fh.sampleSize.toNat + 0 ≤ 8 ∧ 8 ≤ s.rem ∧ s.rem < 9 ∧
    caTable u.params u.fh.channelAssignmentCode = .sideRight ∧ u.ch.toNat = 0 ∧
    8 < u.fh.sampleSize.toNat + 1 ∧ 9 ≤ u.rem := by decide

theorem witness_SampleStored :
    let s := mono .sample 36
    s.ch.toNat < 8 ∧ s.sf[s.ch.toNat]? = some Subframe.reset ∧ 36 ≤ s.rem ∧
    Subframe.reset.samples.length + 1 < ({ s with fh := { s.fh with blockSize := 2 } } : State).fh.blockSize.toNat ∧
    s.fh.blockSize.toNat ≤ Subframe.reset.samples.length + 1 ∧
    s.ch.toNat + 1 < ({ s with fh := { s.fh with channelCount := 2 } } : State).fh.channelCount.toNat ∧
    s.fh.channelCount.toNat ≤ s.ch.toNat + 1 ∧ (mono .sample 35).rem < 36 ∧ (mono .sample 0).rem < 1 := by decide

theorem witness_SextIsTwosComplement :
    1 ≤ 1 ∧ sext 1 (1#1).toNat = -1 ∧ sext 36 (0x800000000#36).toNat = -0x800000000 := by decide

/-- The two samples of a channel of P1, 16 and 1 bits wide. -/
theorem witness_VerbatimSamplesRun :
    let f := { Subframe.reset with width := 16 }
    let s := { mono .sample 32 with
      sf := Vector.replicate 8 f, fh := { FrameHeader.reset with blockSize := 2, channelCount := 2 } }
    s.elem = .sample ∧ s.ch.toNat < 8 ∧ s.sf[s.ch.toNat]? = some f ∧ f.samples.length + 2 = s.fh.blockSize.toNat ∧
    1 ≤ f.width.toNat ∧ f.width.toNat ≤ 36 ∧ 2 * f.width.toNat ≤ s.rem ∧
    s.ch.toNat + 1 < s.fh.channelCount.toNat ∧
    (mono .sample 1).fh.channelCount.toNat ≤ (mono .sample 1).ch.toNat + 1 ∧
    1 * Subframe.reset.width.toNat ≤ (mono .sample 1).rem := by decide

theorem witness_FrameCrcVerdict :
    16 ≤ footer.rem ∧ 0x76BB = crc16 footer.params.crc16 (footer.bytes footer.fh.start (footer.cur / 8)) ∧
    0x76BA ≠ crc16 footer.params.crc16 (footer.bytes footer.fh.start (footer.cur / 8)) ∧ footer.policy = false ∧
    ({ footer with policy := true } : State).policy = true ∧ (left .crc16 15).rem < 16 := by decide +kernel

/-- P1's footer emits its frame. -/
theorem witness_FrameRecordContents :
    ∃ t fr, exec (.crc16 0x76BB) footer = .next t ∧ t.out.getLast? = some (.frame fr) ∧
      0 < footer.fh.channelCount.toNat ∧ footer.sf[0]? = some Subframe.reset := by
  have h2 : (look (exec (.crc16 0x76BB) footer) fun t => match t.out.getLast? with
    | some (.frame _) => true
    | _ => false) = some true := by decide +kernel
  cases he : exec (.crc16 0x76BB) footer with
  | next t =>
    rw [he] at h2
    cases ho : t.out.getLast? with
    | none => simp [look, ho] at h2
    | some ev => cases ev with
      | frame fr => exact ⟨t, fr, rfl, ho, by decide, by decide⟩
      | _ => simp [look, ho] at h2
  | fault _ => rw [he] at h2; cases h2
  | refused _ => rw [he] at h2; cases h2

theorem witness_CrcSerialResidueLinear :
    ([0x01, 0x80] : List Byte).length = [0xFF, 0x00].length := by decide

theorem witness_CrcDetectsBursts :
    (List.replicate 8 true).length = (List.replicate 8 false).length ∧ List.replicate 8 true ≠ List.replicate 8 false ∧
    (List.replicate 16 true).length ≤ 16 ∧ List.replicate 16 true ≠ List.replicate 16 false ∧
    crc8Default.poly = 0x07 ∧ crc16Default.poly = 0x8005 ∧ (0x01 : Byte) ≠ 0x80 := by decide

theorem witness_HostMoves :
    let b := fun (a : HostAction) (s : State) => ({ s with host := [a] } : State)
    (b .start .reset).atBoundary = true ∧ (b .start .reset).host = .start :: [] ∧ (b .start .reset).phase = .idle ∧
    (b .start (left .mbh 8)).atBoundary = true ∧ (b .start (left .mbh 8)).phase ≠ .idle ∧
    (b .next (left .rest 0)).phase = .frame ∧ (b .next (left .rest 0)).cur = 8 * (b .next (left .rest 0)).len ∧
    (b .next (left .rest 8)).phase = .frame ∧ (b .next (left .rest 8)).cur ≠ 8 * (b .next (left .rest 8)).len ∧
    (b .next .reset).phase ≠ .frame ∧ (b (.setLenient true) .reset).host = .setLenient true :: [] ∧
    (b (.setInput [0]) .reset).host = .setInput [0] :: [] := by decide

theorem witness_ResetCommand :
    let s := { left .rest 8 with host := [.reset, .start], phase := .err, err := 10 }
    s.atBoundary = true ∧ s.host = .reset :: [.start] := by decide

theorem witness_StopsByName :
    8 ≤ ({ mono .sfh 8 with ch := 8 } : State).ch.toNat ∧ Elem.inSubframe (Instr.wasted 1).elem = true ∧
    (mono .sample 8).ch.toNat < 8 ∧ (37 = 0 ∨ 36 < 37) ∧
    ({ left .mbh 8 with host := [.setInput []] } : State).atBoundary = true ∧ (left .mbh 8).phase ≠ .idle := by decide

/-- A run at a frame boundary, its chain read. -/
def atFrame : State :=
  { left .rest 8 with
    phase := .frame, first := false, seenSi := 1, siValid := true, out := [.streamInfo StreamInfo.reset] }

theorem next_atFrame : step { atFrame with host := [.next] } = .next { atFrame with elem := .fhWord } := by rfl

theorem witness_CursorStaysInside : ({ atFrame with host := [.next] } : State).CursorInside :=
  ⟨by decide, fun h => nomatch h⟩

theorem witness_InputStaysCanonical : ({ atFrame with host := [.next] } : State).InputCanonical :=
  ⟨by decide, by decide⟩

theorem witness_PlaceStaysAgreed : ({ atFrame with host := [.next] } : State).PlaceAgrees := by
  simp [State.PlaceAgrees, atFrame, left]

/-- A Verbatim subframe whose wasted-bits flag is set, no sample read. -/
def verbatim1 : Subframe := { Subframe.reset with subframeType := .verbatim }

/-- Every register in its range, with the last sample of a mono frame to come. -/
theorem mono_inRange : (mono .sample 1).InRange := by
  refine ⟨by decide, by decide, by decide, by decide, by decide, by decide, by decide, by decide, ?_, by decide,
    by decide, defaultParams_legal⟩
  intro f hf
  simp only [mono, left, State.reset, Vector.toList_replicate] at hf
  rw [List.eq_of_mem_replicate hf]
  decide

/-- The same with the subframe registers as they are there in a run. -/
theorem verbatim_inRange :
    let s := { mono .sample 1 with sf := Vector.replicate 8 verbatim1 }
    s.InRange ∧ s.SubframesInRange := by
  have at0 : ∀ f, (Vector.replicate 8 verbatim1)[0]? = some f → f = verbatim1 := fun f hf => by simpa using hf.symm
  have all : ∀ f ∈ (Vector.replicate 8 verbatim1).toList, f = verbatim1 := fun f hf => by
    rw [Vector.toList_replicate] at hf; exact List.eq_of_mem_replicate hf
  refine ⟨{ mono_inRange with width := fun f hf => by rw [all f hf]; decide }, by decide,
    ?_, ?_, ?_, ?_, nofun, ?_, ?_, nofun⟩
  · intro f hf; rw [all f hf]; nofun
  · intro f hf; rw [all f hf]; nofun
  · intro f hf; rw [all f hf]; nofun
  · intro _ f hf; rw [at0 f hf]; rfl
  · intro _ f hf; rw [at0 f hf]; exact ⟨⟨by decide, by decide⟩, by decide⟩
  · rintro c f (⟨_, h⟩ | ⟨h | h, _⟩) <;> cases h

theorem witness_RangesKept :
    let s := { mono .sample 1 with sf := Vector.replicate 8 verbatim1 }
    (s.InRange ∧ s.SubframesInRange) ∧ (look (step s) fun s => s.elem) = some .pad := ⟨verbatim_inRange, by decide⟩

theorem witness_AlignmentKept :
    (mono .sample 1).InRange ∧ (mono .sample 1).Aligned ∧ (mono .crc16 16).mustAlign = true ∧
      (mono .crc16 16).Aligned :=
  ⟨mono_inRange, fun h => absurd h (by decide), by decide, fun _ => by decide⟩

theorem witness_RunShapeKept :
    ({ atFrame with host := [.next] } : State).PlaceAgrees ∧ ({ atFrame with host := [.next] } : State).RunShape := by
  refine ⟨witness_PlaceStaysAgreed, ⟨by decide, by decide, by decide, by decide, by decide, by decide, by decide, ?_⟩⟩
  exact ⟨[], rfl, fun _ => rfl, rfl⟩

theorem witness_EveryStepHasAnOutcome :
    (mono .sample 1).InRange ∧
    step { mono .rest 8 with host := [.setInput []] } = .refused .inputChanged := ⟨mono_inRange, rfl⟩

theorem witness_InputPolicyAndOutput :
    step { atFrame with host := [.next] } = .next { atFrame with elem := .fhWord } ∧
    (∀ bytes, ({ atFrame with host := [.next] } : State).pendingAction ≠ some (.setInput bytes)) ∧
    (look (step { State.reset with host := [.start], lenient := true }) fun s => s.policy) = some true ∧
    (look (step { State.reset with host := [.setLenient true] }) fun s => s.lenient) = some true :=
  ⟨next_atFrame, fun _ => nofun, by decide, by decide⟩

theorem witness_TerminalPhasesStay :
    let s := { atFrame with phase := .done, host := [.next] }
    let u := { atFrame with phase := .err, host := [.reset] }
    s.PlaceAgrees ∧ s.phase = .done ∧ step s = .next { s with host := [] } ∧ s.pendingAction ≠ some .reset ∧
    u.PlaceAgrees ∧ u.phase = .err ∧ u.pendingAction = some .reset ∧ (look (step u) (·.phase)) = some .idle := by
  refine ⟨?_, rfl, rfl, nofun, ?_, rfl, rfl, rfl⟩ <;> simp [State.PlaceAgrees, atFrame, left]

/-- An element that reads, and a checksum that fails (which the second hypothesis shuts out). -/
theorem witness_LenientSoftensChecksumsOnly :
    ∃ t, exec (.idx1 5) { left .idx 8 with policy := false } = .next t ∧ ¬(t.phase = .err ∧ (t.err = 6 ∨ t.err = 7)) :=
  ⟨_, rfl, fun h => by cases h.1⟩

theorem witness_FailuresOfEachElement :
    (mono .idx 8).InRange ∧ (mono .idx 8).phase ≠ .err ∧
    failure (exec .idxBadFF (mono .idx 8)) = some (.err, 5, 0) := by
  refine ⟨⟨by decide, by decide, by decide, by decide, by decide, by decide, by decide, by decide, ?_, by decide,
    by decide, defaultParams_legal⟩, by decide, by decide⟩
  exact mono_inRange.width

theorem witness_ElementsWriteTheirOwnRegisters :
    (look (exec (.wasted 1) (mono .wasted 8)) fun s => s.phase) = some .frame ∧
    Elem.isMeta (Instr.wasted 1).elem = false ∧ Elem.isHeader (Instr.wasted 1).elem = false ∧
    Elem.inSubframe (Instr.idx1 0).elem = false ∧ (1 : Nat) ≠ (mono .wasted 8).ch.toNat := by decide

theorem witness_UnspecifiedNeverObserved :
    ∃ t, Host.Core.run core 3 { State.reset with host := [.setInput [0x66], .start] } = .next t ∧
      t.err = 10 ∧ t.errOff = 0 := ⟨_, rfl, by decide, by decide⟩

theorem witness_OwnStepsComeToRest :
    (mono .sample 1).CursorInside ∧ (mono .sample 1).InRange ∧ (mono .sample 1).host = [] :=
  ⟨⟨by decide, fun h => nomatch h⟩, mono_inRange, rfl⟩

end Sys2Proof.Tests
end

section
/-!
A field's value in terms of the stream bits and, from a byte boundary, of the bytes (00 R9, 20 R53).
-/

namespace Sys2Proof

/-- The value of a run of bits is the sum of the bits' weights, the first bit the heaviest. -/
theorem bitsVal_map_range (f : Nat → Bool) (n : Nat) :
    bitsVal ((List.range n).map f) = ((List.range n).map fun i => (f i).toNat * 2 ^ (n - 1 - i)).sum := by
  induction n generalizing f with
  | zero => rfl
  | succ n ih =>
    have weight (i : Nat) : n - 1 - i = n - (i + 1) := by omega
    simp only [List.range_succ_eq_map, List.map_cons, List.map_map, bitsVal_cons, List.length_map, List.length_range,
      List.sum_cons, ih, Function.comp_def, Nat.succ_eq_add_one, weight, Nat.add_sub_cancel, Nat.sub_zero]

namespace Machine

@[simp] theorem State.readByte_advance (s : State) (n a : Nat) : (s.advance n).readByte a = s.readByte a := rfl

@[simp] theorem State.streamBits_zero (s : State) : s.streamBits 0 = [] := rfl

/-- From a byte boundary, the byte there comes before the bits after it and weighs more than they do. -/
theorem State.bitsVal_streamBits_byte_add (s : State) (n : Nat) (h : s.cur % 8 = 0) :
    bitsVal (s.streamBits (8 + n)) =
      (s.readByte (s.cur / 8)).toNat * 2 ^ n + bitsVal ((s.advance 8).streamBits n) := by
  rw [State.streamBits_add, bitsVal_append, State.streamBits_length, State.streamBits_byte s h, putField,
    bitsVal_putBits, Nat.mod_eq_of_lt (s.readByte (s.cur / 8)).isLt]

/-- The value of the eight bits at a byte boundary is the byte there. -/
theorem State.bitsVal_streamBits_eight (s : State) (h : s.cur % 8 = 0) :
    bitsVal (s.streamBits 8) = (s.readByte (s.cur / 8)).toNat := by
  simpa [bitsVal] using s.bitsVal_streamBits_byte_add 0 h

/-- Two whole bytes are big-endian. -/
theorem State.bitsVal_streamBits_sixteen (s : State) (h : s.cur % 8 = 0) :
    bitsVal (s.streamBits 16) =
      (s.readByte (s.cur / 8)).toNat * 256 + (s.readByte (s.cur / 8 + 1)).toNat := by
  have tail := (s.advance 8).bitsVal_streamBits_eight (by simpa using h)
  rw [s.bitsVal_streamBits_byte_add 8 h, tail]
  simp

/-- Three whole bytes are big-endian. -/
theorem State.bitsVal_streamBits_twentyFour (s : State) (h : s.cur % 8 = 0) :
    bitsVal (s.streamBits 24) =
      (s.readByte (s.cur / 8)).toNat * 65536 + (s.readByte (s.cur / 8 + 1)).toNat * 256 +
        (s.readByte (s.cur / 8 + 2)).toNat := by
  have tail := (s.advance 8).bitsVal_streamBits_sixteen (by simpa using h)
  rw [s.bitsVal_streamBits_byte_add 16 h, tail]
  simp [Nat.add_assoc]

/-- Settles O6: a field's value is `bitsVal` of the stream bits, read as a sum of weights or byte by byte. -/
theorem fieldsAreBigEndian : Obligations.FieldsAreBigEndian := by
  intro s
  simp only [State.getField_streamBits]
  exact ⟨fun _ => rfl, bitsVal_map_range _, s.bitsVal_streamBits_sixteen, s.bitsVal_streamBits_twentyFour⟩

end Machine

end Sys2Proof
end

section
/-!
The frame header's 8-bit block-size field and its checksum byte (43 R172, R190), and what a step that raises shows.
-/

namespace Sys2Proof.Machine

variable {s : State}

/-- A failure that is taken once only registers a consumer may not rely on have been written, `u` for `s`, is a failure
of `s`. -/
theorem raises_fail {u : State} (e : Failure) (off : Nat) (hout : u.out = s.out) (hvalid : u.siValid = s.siValid)
    (hmem : u.mem = s.mem) (hlen : u.len = s.len) : Raises (fail u e off) s e off :=
  ⟨u.raise e off, rfl, by simp [Raised, State.readByte?, hout, hvalid, hmem, hlen]⟩

/-- A step that raises at once, nothing written before. -/
theorem raises_fail_self (e : Failure) (off : Nat) : Raises (fail s e off) s e off :=
  raises_fail e off rfl rfl rfl rfl

/-! ## The block size -/

theorem blockSizeRow_of_extra8 {code : BitVec 4} (h : bsTable s.params code = .extra8) :
    blockSizeRow code s = .next { s with elem := .xbs8 } := by
  rw [blockSizeRow, h]; rfl

/-- 17 bits hold the 8-bit field plus 1. -/
theorem toNat_blockSizeOf8 (v : BitVec 8) : (blockSizeOf8 v).toNat = v.toNat + 1 := by
  unfold blockSizeOf8; bv_omega

theorem exec_xbs8 (v : BitVec 8) (s : State) : exec (.xbs8 v) s = execXbs8 v s := rfl

theorem execXbs8_of_le (v : BitVec 8) (h : 8 ≤ s.rem) :
    execXbs8 v s = .next { s with
      cur := s.cur + 8
      fh := { s.fh with extendedBlockSize := BitVec.ofNat 16 v.toNat, blockSize := blockSizeOf8 v }
      elem := .srCode } := by
  rw [execXbs8, readBits_of_le (by decide) (by decide) h, BitVec.ofNat_toNat]
  rfl

theorem execXbs8_of_lt (v : BitVec 8) (h : s.rem < 8) : execXbs8 v s = fail s .outOfData s.off :=
  readBits_of_lt (by decide) (by decide) h

/-- Settles O21: the code's row hands over to `XBS8`, whose 17-bit block size holds the field plus 1. -/
theorem blockSizeExtra8 : Obligations.BlockSizeExtra8 := by
  refine ⟨fun s p hp hclass => ?row, by decide, fun v s => ⟨fun h => ?field, fun h => ?cut⟩⟩
  case row => rw [exec_of_mem_bsCodes s hp, blockSizeRow_of_extra8 hclass]
  case field => exact ⟨blockSizeOf8 v, toNat_blockSizeOf8 v, execXbs8_of_le v h⟩
  case cut =>
    rw [exec_xbs8, execXbs8_of_lt v h]
    exact raises_fail_self .outOfData s.off

/-! ## The header checksum -/

/-- The checksum agrees. -/
theorem checkVerdict_of_agree {e : Failure} {off : Nat} {k : State → Res} : checkVerdict true e off s k = k s := rfl

/-- The checksum disagrees, under the lenient policy. -/
theorem checkVerdict_of_lenient {e : Failure} {off : Nat} {k : State → Res} (h : s.policy = true) :
    checkVerdict false e off s k = k (s.report e off) := by
  rw [checkVerdict, h]; rfl

/-- The checksum disagrees, under the strict policy. -/
theorem checkVerdict_of_strict {e : Failure} {off : Nat} {k : State → Res} (h : s.policy = false) :
    checkVerdict false e off s k = fail s e off := by
  rw [checkVerdict, h]; rfl

theorem beginChannels_of_pos (h : 0 < s.fh.channelCount.toNat) :
    beginChannels s = .next { s with ch := 0, elem := .sfh } := by
  rw [beginChannels, if_pos h]

theorem exec_crc8 (v : BitVec 8) (s : State) : exec (.crc8 v) s = execCrc8 v s := rfl

/-- With its byte there, `CRC8` writes the byte and whether it agrees (`ok`), which decides what follows. -/
theorem execCrc8_of_le {v : BitVec 8} {ok : Bool} (h : 8 ≤ s.rem) (hok : (v == s.wantCrc8 s.off) = ok) :
    execCrc8 v s = checkVerdict ok .headerChecksumMismatch s.off
      { s with cur := s.cur + 8, fh := { s.fh with headerCrc8 := v, headerCrcOk := ok } } beginChannels := by
  subst ok
  rw [execCrc8, readBits_of_le (by decide) (by decide) h]
  rfl

theorem execCrc8_of_lt (v : BitVec 8) (h : s.rem < 8) : execCrc8 v s = fail s .outOfData s.off :=
  readBits_of_lt (by decide) (by decide) h

/-- Settles O28: with the byte there, the verdict's three cases, each from the checksum's agreement and the policy. -/
theorem headerCrcVerdict : Obligations.HeaderCrcVerdict := by
  refine ⟨by decide, fun v s => ⟨fun h hch hv => ?agree, fun h hch hv hp => ?lenient, fun h hv hp => ?strict,
    fun h => ?cut⟩⟩
  case agree =>
    rw [exec_crc8, execCrc8_of_le h (beq_iff_eq.2 hv), checkVerdict_of_agree]
    exact beginChannels_of_pos hch
  case lenient =>
    rw [exec_crc8, execCrc8_of_le h (beq_eq_false_iff_ne.2 hv), checkVerdict_of_lenient]
    · exact beginChannels_of_pos hch
    · exact hp
  case strict =>
    rw [exec_crc8, execCrc8_of_le h (beq_eq_false_iff_ne.2 hv), checkVerdict_of_strict]
    · exact raises_fail .headerChecksumMismatch s.off rfl rfl rfl rfl
    · exact hp
  case cut =>
    rw [exec_crc8, execCrc8_of_lt v h]
    exact raises_fail_self .outOfData s.off

end Sys2Proof.Machine
end

section
/-!
The Verbatim subframe header (46 R235, R236, R242), read by read, and the start of the samples (46 R243 to R245).
-/

namespace Sys2Proof.Machine

variable {s : State} {f : Subframe} {t : BitVec 6} {w : Bool}

/-! ## The subframe register file -/

theorem State.setSubframe_advance (s : State) (f : Subframe) (n : Nat) :
    (s.setSubframe f).advance n = (s.advance n).setSubframe f := rfl

theorem withSubframe_of_some {k : Subframe → Res} (h : s.sf[s.ch.toNat]? = some f) : withSubframe s k = k f := by
  rw [withSubframe, h]

/-! ## The header, read by read -/

theorem exec_sfhVerbatim (w : Bool) (s : State) : exec (.sfhVerbatim w) s = subframeHeader false 1 w s := rfl

theorem classify_one : classify 1 = .verbatim := rfl

/-- No zero bit. -/
theorem subframeHeader_of_rem_lt_one {z : Bool} (hf : s.sf[s.ch.toNat]? = some f) (h : s.rem < 1) :
    subframeHeader z t w s = fail s .outOfData s.off := by
  rw [subframeHeader, withSubframe_of_some hf]
  exact readBits_of_lt (by decide) (by decide) h

/-- The zero bit is there and clear, the type code is not. -/
theorem subframeHeader_of_rem_lt_seven (hf : s.sf[s.ch.toNat]? = some f) (h1 : 1 ≤ s.rem) (h7 : s.rem < 7) :
    subframeHeader false t w s = fail (s.advance 1) .outOfData (s.advance 1).off := by
  rw [subframeHeader, withSubframe_of_some hf, readBits_of_le (by decide) (by decide) h1]
  simp only [Bool.false_eq_true, if_false]
  exact readBits_of_lt (by decide) (by decide) (by rw [State.rem_advance]; omega)

/-- A clear zero bit and a Verbatim type code: the type is stored, and the flag decides between the wasted-bits count
and the samples. -/
theorem subframeHeader_of_verbatim (ht : classify t = .verbatim) (hf : s.sf[s.ch.toNat]? = some f) (h : 7 ≤ s.rem) :
    subframeHeader false t w s =
      readBits 1 ((s.advance 7).setSubframe { f with subframeType := .verbatim }) fun s =>
        if w then .next ((s.setSubframe { f with subframeType := .verbatim, wastedBitsPresent := w }).goto .wasted)
        else beginSamples s.off (s.setSubframe
          { f with subframeType := .verbatim, wastedBitsPresent := w, wastedBitCount := 0 }) := by
  have h6 : 6 ≤ (s.advance 1).rem := by rw [State.rem_advance]; omega
  rw [subframeHeader, withSubframe_of_some hf, readBits_of_le (by decide) (by decide) (by omega)]
  simp only [Bool.false_eq_true, if_false]
  rw [readBits_of_le (by decide) (by decide) h6, ht, State.advance_advance]

/-- The type is there, the flag is not. -/
theorem subframeHeader_verbatim_of_rem_eq_seven (ht : classify t = .verbatim) (hf : s.sf[s.ch.toNat]? = some f)
    (h : s.rem = 7) :
    subframeHeader false t w s =
      fail ((s.advance 7).setSubframe { f with subframeType := .verbatim }) .outOfData (s.advance 7).off := by
  rw [subframeHeader_of_verbatim ht hf (by omega)]
  exact readBits_of_lt (by decide) (by decide) (by rw [State.rem_setSubframe, State.rem_advance]; omega)

/-- All 8 bits are there: the flag is stored too, and the wasted-bits count follows (flag 1), or a count of 0 is stored
and the samples begin (flag 0). -/
theorem subframeHeader_verbatim_of_eight_le (ht : classify t = .verbatim) (hf : s.sf[s.ch.toNat]? = some f)
    (h : 8 ≤ s.rem) :
    subframeHeader false t w s =
      if w then .next (((s.advance 8).setSubframe
        { f with subframeType := .verbatim, wastedBitsPresent := w }).goto .wasted)
      else beginSamples (s.advance 8).off ((s.advance 8).setSubframe
        { f with subframeType := .verbatim, wastedBitsPresent := w, wastedBitCount := 0 }) := by
  have h1 : 1 ≤ ((s.advance 7).setSubframe { f with subframeType := .verbatim }).rem := by
    rw [State.rem_setSubframe, State.rem_advance]; omega
  rw [subframeHeader_of_verbatim ht hf (by omega), readBits_of_le (by decide) (by decide) h1]
  simp only [State.setSubframe_advance, State.advance_advance, State.setSubframe_setSubframe]
  rfl

/-! ## The start of the samples -/

/-- A width of at least 1, in a block that is not empty: the width is stored and the sample list begins empty. -/
theorem beginSamples_of_one_le {u : Nat} {width : Int} (hf : s.sf[s.ch.toNat]? = some f)
    (hwidth : sampleWidth (channelWidth s.fh.sampleSize (caTable s.params s.fh.channelAssignmentCode) s.ch.toNat)
      f.wastedBitCount = width) (hpos : 1 ≤ width) (hblock : s.fh.blockSize ≠ 0) :
    beginSamples u s =
      .next ((s.setSubframe { f with width := BitVec.ofInt 6 width, samples := [] }).goto .sample) := by
  rw [beginSamples, withSubframe_of_some hf]
  simp only [hwidth]
  rw [if_neg (by omega), if_neg (by exact hblock)]

/-- Without wasted bits the width is the channel's own. -/
theorem sampleWidth_zero (d : Nat) : sampleWidth d 0 = d := Int.sub_zero _

theorem sampleSize_le_channelWidth (size : BitVec 6) (cls : ChannelClass) (c : Nat) :
    size.toNat ≤ channelWidth size cls c := Nat.le_add_right _ _

/-- A Verbatim header with flag 0 stores all that the samples need, and the first sample follows. -/
theorem subframeHeader_verbatim_to_sample (ht : classify t = .verbatim) (hch : s.ch.toNat < 8)
    (hf : s.sf[s.ch.toNat]? = some f) (h : 8 ≤ s.rem) (hsize : 1 ≤ s.fh.sampleSize.toNat)
    (hblock : s.fh.blockSize ≠ 0) :
    subframeHeader false t false s = .next (((s.advance 8).setSubframe
      { subframeType := .verbatim, wastedBitsPresent := false, wastedBitCount := 0, samples := []
        width := BitVec.ofInt 6
          (channelWidth s.fh.sampleSize (caTable s.params s.fh.channelAssignmentCode) s.ch.toNat) }).goto .sample) := by
  rw [subframeHeader_verbatim_of_eight_le ht hf h, if_neg Bool.false_ne_true,
    beginSamples_of_one_le ((s.advance 8).getElem_setSubframe _ hch) (sampleWidth_zero _)
      (Int.ofNat_le.2 (hsize.trans (sampleSize_le_channelWidth _ _ _))) hblock,
    State.setSubframe_setSubframe]
  rfl

/-- Settles O32: the flag's two values where the header's 8 bits are there, and one cut for each of its three reads. -/
theorem verbatimHeader : Obligations.VerbatimHeader := by
  refine fun s f hch hf => ⟨fun h => ?flag, fun h hsize _ hblock => ?noFlag, fun w h => ?cutZeroBit,
    fun w h1 h7 => ?cutType, fun w h => ?cutFlag⟩ <;> rw [exec_sfhVerbatim]
  case flag => exact subframeHeader_verbatim_of_eight_le classify_one hf h
  case noFlag => exact ⟨_, [], subframeHeader_verbatim_to_sample classify_one hch hf h hsize hblock⟩
  case cutZeroBit =>
    rw [subframeHeader_of_rem_lt_one hf h]
    exact raises_fail_self .outOfData s.off
  case cutType =>
    rw [subframeHeader_of_rem_lt_seven hf h1 h7]
    exact raises_fail .outOfData (s.advance 1).off rfl rfl rfl rfl
  case cutFlag =>
    rw [subframeHeader_verbatim_of_rem_eq_seven classify_one hf h]
    exact raises_fail .outOfData (s.advance 7).off rfl rfl rfl rfl

end Sys2Proof.Machine
end

section
/-!
The frame footer's checksum field and its verdict (47 R262).
-/

namespace Sys2Proof.Machine

variable {s : State}

/-- A frame emitted after a report: the two events in order, and the record is the one without the report. -/
theorem emitFrame_report (s : State) (e : Failure) (off : Nat) :
    emitFrame (s.report e off) = .next { s with
      out := s.out ++ [.report e.code off, .frame s.frameRecord], phase := .frame, elem := .rest } := by
  simp [emitFrame, State.report, State.emit, State.frameRecord]

theorem exec_crc16 (v : BitVec 16) (s : State) : exec (.crc16 v) s = execCrc16 v s := rfl

/-- With its two bytes there, `CRC16` writes the field and whether it agrees (`ok`), which decides what follows. -/
theorem execCrc16_of_le {v : BitVec 16} {ok : Bool} (h : 16 ≤ s.rem) (hok : (v == s.wantCrc16 s.off) = ok) :
    execCrc16 v s = checkVerdict ok .frameChecksumMismatch s.off
      { s with cur := s.cur + 16, fr := { footerCrc16 := v, footerCrcOk := ok } } emitFrame := by
  subst ok
  rw [execCrc16, readBits_of_le (by decide) (by decide) h]
  rfl

theorem execCrc16_of_lt (v : BitVec 16) (h : s.rem < 16) : execCrc16 v s = fail s .outOfData s.off :=
  readBits_of_lt (by decide) (by decide) h

/-- Settles O39: with the field there, the verdict's three cases, each from the checksum's agreement and the policy; the
two that go on emit `State.frameRecord` of the state with the footer written. -/
theorem frameCrcVerdict : Obligations.FrameCrcVerdict := by
  refine fun v s => ⟨fun h hv => ⟨State.frameRecord { s with fr := ⟨v, true⟩ }, rfl, rfl, rfl, ?agree⟩,
    fun h hv hp => ⟨State.frameRecord { s with fr := ⟨v, false⟩ }, rfl, rfl, rfl, ?lenient⟩,
    fun h hv hp => ?strict, fun h => ?cut⟩
  case agree =>
    rw [exec_crc16, execCrc16_of_le h (beq_iff_eq.2 hv), checkVerdict_of_agree]
    rfl
  case lenient =>
    rw [exec_crc16, execCrc16_of_le h (beq_eq_false_iff_ne.2 hv), checkVerdict_of_lenient]
    · rw [emitFrame_report]; rfl
    · exact hp
  case strict =>
    rw [exec_crc16, execCrc16_of_le h (beq_eq_false_iff_ne.2 hv), checkVerdict_of_strict]
    · exact raises_fail .frameChecksumMismatch s.off rfl rfl rfl rfl
    · exact hp
  case cut =>
    rw [exec_crc16, execCrc16_of_lt v h]
    exact raises_fail_self .outOfData s.off

end Sys2Proof.Machine
end

section
/-!
The formats of 30 R71 to R84, read in both directions: what the decoder reads off an encoding, and what the forms it
answers encode to.
-/

namespace Sys2Proof

/-! ## What the decoder's forms encode to -/

theorem encode_bsRow (p : Params) (c : BitVec 4) : encode p (bsRows.getD c.toNat .bs0000) = putField c := by
  obtain ⟨⟨n, hn⟩⟩ := c; interval_cases n <;> rfl

theorem encode_srRow (p : Params) (c : BitVec 4) : encode p (srRows.getD c.toNat .sr1111) = putField c := by
  obtain ⟨⟨n, hn⟩⟩ := c; interval_cases n <;> rfl

theorem encode_caRow (p : Params) (c : BitVec 4) : encode p (caRows.getD c.toNat .ca1111) = putField c := by
  obtain ⟨⟨n, hn⟩⟩ := c; interval_cases n <;> rfl

theorem encode_ssRow (p : Params) (c : BitVec 3) : encode p (ssRows.getD c.toNat .ss111) = putField c := by
  obtain ⟨⟨n, hn⟩⟩ := c; interval_cases n <;> rfl

/-- The parameters enter the encoding of a block header only. -/
theorem encode_eq_of_ne_mbh {i : Instr} (h : i.elem ≠ .mbh) (p q : Params) : encode p i = encode q i := by
  cases i with
  | mbhSi | mbhOther => exact absurd rfl h
  | _ => rfl

theorem encode_idxForm (p : Params) (b : BitVec 8) : encode p (idxForm b) = putField b := by
  have table : ∀ b : BitVec 8, encode defaultParams (idxForm b) = putField b := by decide
  rw [encode_eq_of_ne_mbh (by simp [elem_idxForm]) p defaultParams, table]

theorem encode_sfhForm (p : Params) (z : Bool) (t : BitVec 6) (w : Bool) :
    encode p (sfhForm z t w) = z :: putField t ++ [w] := by
  have table : ∀ (z : Bool) (t : BitVec 6) (w : Bool),
      encode defaultParams (sfhForm z t w) = z :: putField t ++ [w] := by decide
  rw [encode_eq_of_ne_mbh (by simp [elem_sfhForm]) p defaultParams, table]

theorem encode_mbhForm (p : Params) (l : Bool) (t : BitVec 7) (n : BitVec 24) :
    encode p (mbhForm p l t n) = l :: putField t ++ putField n := by
  unfold mbhForm; split
  · subst t; rfl
  · rfl

/-! ## Every instruction of the index and of the subframe headers is a form -/

theorem idxForm_idx1 : ∀ v : BitVec 7, idxForm (0b0#1 ++ v) = .idx1 v := by decide
theorem idxForm_idx2 : ∀ v : BitVec 5, idxForm (0b110#3 ++ v) = .idx2 v := by decide
theorem idxForm_idx3 : ∀ v : BitVec 4, idxForm (0b1110#4 ++ v) = .idx3 v := by decide
theorem idxForm_idx4 : ∀ v : BitVec 3, idxForm (0b11110#5 ++ v) = .idx4 v := by decide
theorem idxForm_idx5 : ∀ v : BitVec 2, idxForm (0b111110#6 ++ v) = .idx5 v := by decide
theorem idxForm_idx6 : ∀ v : BitVec 1, idxForm (0b1111110#7 ++ v) = .idx6 v := by decide
theorem idxForm_idx7 : idxForm 0b11111110 = .idx7 := by decide
theorem idxForm_idxBad10 : ∀ x : BitVec 6, idxForm (0b10#2 ++ x) = .idxBad10 x := by decide
theorem idxForm_idxBadFF : idxForm 0b11111111 = .idxBadFF := by decide

/-- Every instruction of the index' first byte is the form of some byte. -/
theorem exists_idxForm {i : Instr} (h : i.elem = .idx) : ∃ b, idxForm b = i := by
  cases i with
  | idx1 v => exact ⟨_, idxForm_idx1 v⟩
  | idx2 v => exact ⟨_, idxForm_idx2 v⟩
  | idx3 v => exact ⟨_, idxForm_idx3 v⟩
  | idx4 v => exact ⟨_, idxForm_idx4 v⟩
  | idx5 v => exact ⟨_, idxForm_idx5 v⟩
  | idx6 v => exact ⟨_, idxForm_idx6 v⟩
  | idx7 => exact ⟨_, idxForm_idx7⟩
  | idxBad10 x => exact ⟨_, idxForm_idxBad10 x⟩
  | idxBadFF => exact ⟨_, idxForm_idxBadFF⟩
  | _ => cases h

theorem sfhForm_rsvd00001x : ∀ (x : BitVec 1) (w : Bool),
    sfhForm false (0b00001#5 ++ x) w = .sfhRsvd00001x x w := by decide
theorem sfhForm_rsvd0001xx : ∀ (x : BitVec 2) (w : Bool),
    sfhForm false (0b0001#4 ++ x) w = .sfhRsvd0001xx x w := by decide
theorem sfhForm_fixed : ∀ (o : BitVec 3) (w : Bool), sfhForm false (0b001#3 ++ o) w = .sfhFixed o w := by decide
theorem sfhForm_rsvd01xxxx : ∀ (x : BitVec 4) (w : Bool),
    sfhForm false (0b01#2 ++ x) w = .sfhRsvd01xxxx x w := by decide
theorem sfhForm_lpc : ∀ (o : BitVec 5) (w : Bool), sfhForm false (0b1#1 ++ o) w = .sfhLpc o w := by decide

/-- Every subframe header is the form of its three fields. -/
theorem exists_sfhForm {i : Instr} (h : i.elem = .sfh) : ∃ z t w, sfhForm z t w = i := by
  cases i with
  | sfhConstant w => exact ⟨false, 0, w, rfl⟩
  | sfhVerbatim w => exact ⟨false, 1, w, rfl⟩
  | sfhRsvd00001x x w => exact ⟨false, _, w, sfhForm_rsvd00001x x w⟩
  | sfhRsvd0001xx x w => exact ⟨false, _, w, sfhForm_rsvd0001xx x w⟩
  | sfhFixed o w => exact ⟨false, _, w, sfhForm_fixed o w⟩
  | sfhRsvd01xxxx x w => exact ⟨false, _, w, sfhForm_rsvd01xxxx x w⟩
  | sfhLpc o w => exact ⟨false, _, w, sfhForm_lpc o w⟩
  | sfhRsvdZ t w => exact ⟨true, t, w, rfl⟩
  | _ => cases h

/-- Every well-formed block header is the form of its three fields. -/
theorem exists_mbhForm {p : Params} {i : Instr} (h : i.elem = .mbh) (hw : i.wellFormed p = true) :
    ∃ l t n, mbhForm p l t n = i := by
  cases i with
  | mbhSi l n => exact ⟨l, p.tStreamInfo, n, if_pos rfl⟩
  | mbhOther l t n => exact ⟨l, t, n, if_neg (by simpa [Instr.wellFormed] using hw)⟩
  | _ => cases h

/-! ## Decoding an encoding -/

/-- An encoding holds the whole element. -/
theorem bits_le_encode (p : Params) (i : Instr) : i.elem.bits i.width ≤ (encode p i).length := by
  cases i <;> simp [encode, Instr.elem, Elem.bits, Instr.width, putSfh]

theorem decodeWhole_encode_idx {p : Params} {i : Instr} {w : Nat} (rest : Bits) (h : i.elem = .idx) :
    decodeWhole p .idx w (encode p i ++ rest) = .ok (i, rest) := by
  obtain ⟨b, rfl⟩ := exists_idxForm h
  simp [decodeWhole, encode_idxForm]

theorem decodeWhole_encode_sfh {p : Params} {i : Instr} {w : Nat} (rest : Bits) (h : i.elem = .sfh) :
    decodeWhole p .sfh w (encode p i ++ rest) = .ok (i, rest) := by
  obtain ⟨z, t, w, rfl⟩ := exists_sfhForm h
  simp [decodeWhole, decodeSfh, encode_sfhForm]

theorem decodeWhole_encode_mbh {p : Params} {i : Instr} {w : Nat} (rest : Bits) (h : i.elem = .mbh)
    (hw : i.wellFormed p = true) : decodeWhole p .mbh w (encode p i ++ rest) = .ok (i, rest) := by
  obtain ⟨l, t, n, rfl⟩ := exists_mbhForm h hw
  simp [decodeWhole, decodeMbh, encode_mbhForm]

theorem decodeWhole_encode {p : Params} {i : Instr} (rest : Bits) (h : i.wellFormed p = true) :
    decodeWhole p i.elem i.width (encode p i ++ rest) = .ok (i, rest) := by
  cases i with
  | mbhSi | mbhOther => exact decodeWhole_encode_mbh rest rfl h
  | siBody => simp [decodeWhole, decodeSiBody, Instr.elem, encode]
  | fhWord => simp [decodeWhole, decodeFhWord, Instr.elem, encode]
  | idx1 | idx2 | idx3 | idx4 | idx5 | idx6 | idx7 | idxBad10 | idxBadFF => exact decodeWhole_encode_idx rest rfl
  | idxCont => simp [decodeWhole, decodeIdxCont, Instr.elem, encode]
  | sfhConstant | sfhVerbatim | sfhRsvd00001x | sfhRsvd0001xx | sfhFixed | sfhRsvd01xxxx | sfhLpc | sfhRsvdZ =>
    exact decodeWhole_encode_sfh rest rfl
  | wasted k =>
    have hk : k - 1 + 1 = k := Nat.sub_add_cancel (by simpa [Instr.wellFormed] using h)
    simp [decodeWhole, Instr.elem, encode, decodeUnary_replicate, hk]
  | sample w field =>
    have hlt : field.toNat < 2 ^ w := by
      simp only [Instr.wellFormed, Bool.and_eq_true, decide_eq_true_eq] at h; exact h.2
    simp [decodeWhole, Instr.elem, Instr.width, encode, bitsVal_putBits, Nat.mod_eq_of_lt hlt]
  | pad bits => simp [decodeWhole, Instr.elem, Instr.width, encode]
  | sig | xbs8 | xbs16 | xsr8k | xsr16 | xsr16t | crc8 | crc16 => simp [decodeWhole, Instr.elem, encode]
  | _ => rfl

/-- Settles O1: the encoding holds the whole element, and the decoder reads each field off its own bits. -/
theorem decodeEncodeRoundTrip : Obligations.DecodeEncodeRoundTrip := by
  intro p i rest h
  rw [decode_of_le (by rw [List.length_append]; exact Nat.le_add_right_of_le (bits_le_encode p i)),
    decodeWhole_encode rest h]

/-! ## Encoding what was decoded -/

theorem getFlag_append {bs : Bits} (h : 1 ≤ bs.length) : (getFlag bs).1 :: (getFlag bs).2 = bs := by
  cases bs with
  | nil => cases h
  | cons b bs => rfl

@[simp] theorem getField_snd_length (n : Nat) (bs : Bits) : (getField n bs).2.length = bs.length - n :=
  List.length_drop

@[simp] theorem getFlag_snd_length (bs : Bits) : (getFlag bs).2.length = bs.length - 1 := List.length_tail

theorem encode_decodeMbh (p : Params) {bs : Bits} (h : 32 ≤ bs.length) :
    encode p (decodeMbh p bs).1 ++ (decodeMbh p bs).2 = bs := by
  simp only [decodeMbh, encode_mbhForm, List.append_assoc, List.cons_append]
  rw [putField_getField (by simp; omega), putField_getField (by simp; omega), getFlag_append (by omega)]

theorem encode_decodeSiBody (p : Params) {bs : Bits} (h : 272 ≤ bs.length) :
    encode p (decodeSiBody bs).1 ++ (decodeSiBody bs).2 = bs := by
  simp only [decodeSiBody, encode, List.append_assoc]
  iterate 8 rw [putField_getField (by simp; omega)]
  rw [putField_getField (by omega)]

theorem encode_decodeFhWord (p : Params) {bs : Bits} (h : 32 ≤ bs.length) :
    encode p (decodeFhWord bs).1 ++ (decodeFhWord bs).2 = bs := by
  simp only [decodeFhWord, encode, List.append_assoc, List.cons_append, List.nil_append]
  rw [getFlag_append (by simp; omega)]
  iterate 4 rw [putField_getField (by simp; omega)]
  rw [getFlag_append (by simp; omega), getFlag_append (by simp; omega), putField_getField (by omega)]

theorem encode_decodeSfh (p : Params) {bs : Bits} (h : 8 ≤ bs.length) :
    encode p (decodeSfh bs).1 ++ (decodeSfh bs).2 = bs := by
  simp only [decodeSfh, encode_sfhForm, List.append_assoc, List.cons_append, List.nil_append]
  rw [getFlag_append (by simp; omega), putField_getField (by simp; omega), getFlag_append (by omega)]

theorem encode_decodeIdxCont (p : Params) {bs : Bits} (h : 8 ≤ bs.length) :
    encode p (decodeIdxCont bs).1 ++ (decodeIdxCont bs).2 = bs := by
  simp only [decodeIdxCont, encode, List.append_assoc]
  rw [putField_getField (by simp; omega), putField_getField (by omega)]

/-- The value of a run of at most 36 bits, as a sample holds it. -/
theorem toNat_sampleField {bs : Bits} (h : bs.length ≤ 36) : (BitVec.ofNat 36 (bitsVal bs)).toNat = bitsVal bs := by
  rw [BitVec.toNat_ofNat, Nat.mod_eq_of_lt]
  exact (bitsVal_lt bs).trans_le (Nat.pow_le_pow_right (by decide) h)

/-- Whatever is decoded encodes to the bits it was read from. -/
theorem encode_decodeWhole {p : Params} {e : Elem} {w : Nat} {bs rest : Bits} {i : Instr}
    (hsample : e = .sample → w ≤ 36) (hlen : e.bits w ≤ bs.length) (h : decodeWhole p e w bs = .ok (i, rest)) :
    encode p i ++ rest = bs := by
  cases e <;> simp only [decodeWhole] at h
  case rest => cases h
  case wasted =>
    split at h <;> cases h
    have := (decodeUnary_some ‹_›).2
    simpa [encode] using this
  all_goals cases h
  case mbh.refl => exact encode_decodeMbh p hlen
  case siBody.refl => exact encode_decodeSiBody p hlen
  case fhWord.refl => exact encode_decodeFhWord p hlen
  case sfh.refl => exact encode_decodeSfh p hlen
  case idxCont.refl => exact encode_decodeIdxCont p hlen
  case mbBody.refl => rfl
  case bsCode.refl => rw [encode_bsRow]; exact putField_getField hlen
  case srCode.refl => rw [encode_srRow]; exact putField_getField hlen
  case caCode.refl => rw [encode_caRow]; exact putField_getField hlen
  case ssCode.refl => rw [encode_ssRow]; exact putField_getField hlen
  case idx.refl => rw [encode_idxForm]; exact putField_getField hlen
  case sample.refl =>
    have hw : (bs.take w).length = w := List.length_take_of_le hlen
    have hval := putBits_bitsVal (bs.take w)
    rw [hw] at hval
    rw [encode, toNat_sampleField (by rw [hw]; exact hsample rfl), hval, List.take_append_drop]
  case pad.refl => exact List.take_append_drop w bs
  all_goals exact putField_getField hlen

theorem wellFormed_mbhForm (p : Params) (l : Bool) (t : BitVec 7) (n : BitVec 24) :
    (mbhForm p l t n).wellFormed p = true := by
  unfold mbhForm; split
  · rfl
  · simpa [Instr.wellFormed] using ‹_›

/-- Only four kinds of element have operands that the encoding excludes. -/
theorem wellFormed_of_elem {p : Params} {i : Instr} (hm : i.elem ≠ .mbh) (hw : i.elem ≠ .wasted)
    (hs : i.elem ≠ .sample) (hp : i.elem ≠ .pad) : i.wellFormed p = true := by
  cases i with
  | mbhOther => exact absurd rfl hm
  | wasted => exact absurd rfl hw
  | sample => exact absurd rfl hs
  | pad => exact absurd rfl hp
  | _ => rfl

theorem wellFormed_decodeWhole {p : Params} {e : Elem} {w : Nat} {bs rest : Bits} {i : Instr}
    (hsample : e = .sample → 1 ≤ w ∧ w ≤ 36) (hpad : e = .pad → w ≤ 7) (helem : i.elem = e)
    (h : decodeWhole p e w bs = .ok (i, rest)) : i.wellFormed p = true := by
  cases e
  case mbh => cases h; exact wellFormed_mbhForm p _ _ _
  case wasted =>
    simp only [decodeWhole] at h
    split at h <;> cases h
    exact decide_eq_true (decodeUnary_some ‹_›).1
  case sample =>
    cases h
    obtain ⟨h1, h36⟩ := hsample rfl
    have hle : (bs.take w).length ≤ w := List.length_take_le w bs
    have hlt := (bitsVal_lt (bs.take w)).trans_le (Nat.pow_le_pow_right (by decide) hle)
    simp [Instr.wellFormed, Config.nMax, h1, h36, toNat_sampleField (hle.trans h36), hlt]
  case pad =>
    cases h
    exact decide_eq_true ((List.length_take_le w bs).trans (hpad rfl))
  all_goals exact wellFormed_of_elem (by simp [helem]) (by simp [helem]) (by simp [helem]) (by simp [helem])

/-- The two elements whose length is asked for have that length. -/
theorem width_decodeWhole {p : Params} {e : Elem} {w : Nat} {bs rest : Bits} {i : Instr}
    (he : e = .sample ∨ e = .pad) (hlen : e.bits w ≤ bs.length) (h : decodeWhole p e w bs = .ok (i, rest)) :
    i.width = w := by
  rcases he with rfl | rfl <;> cases h
  · rfl
  · exact List.length_take_of_le hlen

/-- Settles O2: the four parts of the claim are facts of `decodeWhole`. -/
theorem decodedBitsEncodeBack : Obligations.DecodedBitsEncodeBack := by
  intro p e w bs i rest hsample hpad h
  obtain ⟨hlen, hwhole⟩ := le_of_decode h
  exact ⟨decode_elem h, wellFormed_decodeWhole hsample hpad (decode_elem h) hwhole,
    encode_decodeWhole (fun he => (hsample he).2) hlen hwhole, fun he => width_decodeWhole he hlen hwhole⟩

/-- A word written out is read as the instruction it is the encoding of. -/
theorem decode_of_encode_eq {p : Params} {e : Elem} {w : Nat} {bs rest : Bits} {i : Instr} (he : i.elem = e)
    (hw : i.width = w) (hi : i.wellFormed p = true) (hbs : encode p i = bs) :
    decode p e w (bs ++ rest) = .ok (i, rest) := by
  subst he hw hbs
  exact decodeEncodeRoundTrip p i rest hi

/-- Settles O3: each word is the encoding of its element, written out, so O1 reads it back. -/
theorem specWordsDecode : Obligations.SpecWordsDecode := by
  intro rest
  refine ⟨?_, ?_, ?_, ?_, ?_, ?_, ?_, ?_, ?_, ?_, ?_, ?_, ?_, ?_, ?_, ?_, ?_, ?_, ?_, ?_, ?_, ?_, ?_, ?_⟩
  all_goals exact decode_of_encode_eq rfl rfl rfl rfl

@[simp] theorem getField_putField_self {n : Nat} (v : BitVec n) : getField n (putField v) = (v, []) := by
  simpa using getField_putField v []

/-! ## Fetching -/

namespace Machine

variable {s : State}

theorem fetch_bsCode (h : s.elem = .bsCode) :
    fetch s = some (bsRows.getD s.fh.blockSizeCode.toNat .bs0000) := by
  rw [fetch_eq, State.window, h]; simp [decodeWhole, Except.toOption]

theorem fetch_srCode (h : s.elem = .srCode) :
    fetch s = some (srRows.getD s.fh.sampleRateCode.toNat .sr1111) := by
  rw [fetch_eq, State.window, h]; simp [decodeWhole, Except.toOption]

theorem fetch_caCode (h : s.elem = .caCode) :
    fetch s = some (caRows.getD s.fh.channelAssignmentCode.toNat .ca1111) := by
  rw [fetch_eq, State.window, h]; simp [decodeWhole, Except.toOption]

theorem fetch_ssCode (h : s.elem = .ssCode) :
    fetch s = some (ssRows.getD s.fh.sampleSizeCode.toNat .ss111) := by
  rw [fetch_eq, State.window, h]; simp [decodeWhole, Except.toOption]

/-- Settles O7: what is fetched is the code's row, and the row of a code encodes to it. -/
theorem codeRegisterSelectsRow : Obligations.CodeRegisterSelectsRow :=
  fun _ => ⟨fun h => ⟨_, fetch_bsCode h, elem_bsRow _, encode_bsRow _ _⟩,
    fun h => ⟨_, fetch_srCode h, elem_srRow _, encode_srRow _ _⟩,
    fun h => ⟨_, fetch_caCode h, elem_caRow _, encode_caRow _ _⟩,
    fun h => ⟨_, fetch_ssCode h, elem_ssRow _, encode_ssRow _ _⟩⟩

/-- The unary code is fetched from the bits that remain, and a 1-bit after them. -/
theorem fetch_wasted {k : Nat} (rest : Bits) (h : s.elem = .wasted)
    (hu : decodeUnary (s.streamBits s.rem ++ [true]) = some (k, rest)) : fetch s = some (.wasted k) := by
  rw [fetch_eq, State.window, h]; simp [decodeWhole, hu, Except.toOption]

/-- A run of 0-bits at the cursor. -/
theorem State.streamBits_eq_replicate {n : Nat} (h : ∀ i, i < n → s.bitAt (s.cur + i) = false) :
    s.streamBits n = List.replicate n false :=
  List.eq_replicate_iff.2 ⟨s.streamBits_length n, by
    simpa [State.streamBits] using h⟩

/-- Settles O9: the bits that remain are split at the first 1-bit, inside the input or just past its end. -/
theorem unaryCodeIsCounted : Obligations.UnaryCodeIsCounted := by
  refine fun s he => ⟨fun k hk hzeros hone => ?_, fun hzeros => ?_⟩
  · have split : s.rem = k + (1 + (s.rem - k - 1)) := by omega
    have one : (s.advance k).streamBits 1 = [true] := by
      simpa [State.streamBits, State.bitAt, State.readByte, State.readByte?] using hone
    refine fetch_wasted (((s.advance k).advance 1).streamBits (s.rem - k - 1) ++ [true]) he ?_
    rw [split, State.streamBits_add, State.streamBits_add, State.streamBits_eq_replicate hzeros, one]
    simpa using decodeUnary_replicate k _
  · refine fetch_wasted [] he ?_
    rw [State.streamBits_eq_replicate hzeros]
    exact decodeUnary_replicate s.rem []

end Machine

end Sys2Proof
end

section
/-!
What one element can do to the state, said once for all elements (`Ran`): it fails, with nothing written but its own
registers, or it goes on to one of its successors. The frame is one equation: giving back every register that the
element may not write changes nothing (48 R279 and the `State written` of the element rules).
-/

namespace Sys2Proof.Machine

/-! ## Results that answer a state -/

/-- If the result answers a state, the state has the property. -/
def Answers (Q : State → Prop) (r : Res) : Prop := ∀ t, r = .next t → Q t

variable {Q : State → Prop} {s t u : State} {e : Elem}

theorem Answers.next (h : Q t) : Answers Q (.next t) := by rintro _ ⟨⟩; exact h

theorem Answers.fault (r : Fault) : Answers Q (.fault r) := by rintro _ ⟨⟩

theorem Answers.refused (r : Refusal) : Answers Q (.refused r) := by rintro _ ⟨⟩

theorem Answers.mono {Q' : State → Prop} {r : Res} (h : Answers Q r) (hQ : ∀ t, Q t → Q' t) : Answers Q' r :=
  fun t ht => hQ t (h t ht)

/-! ## The frame of an element -/

/-- The elements that may follow the element `e`. -/
def Elem.successors (e : Elem) : List Elem :=
  match e with
  | .rest => []
  | .sig => [.mbh]
  | .mbh => [.siBody, .mbBody]
  | .siBody | .mbBody => [.mbh, .rest]
  | .fhWord => [.bsCode, .srCode, .caCode, .ssCode, .idx]
  | .idx | .idxCont => [.idxCont, .bsCode]
  | .bsCode => [.srCode, .xbs8, .xbs16]
  | .srCode => [.caCode, .xsr8k, .xsr16, .xsr16t]
  | .caCode => [.ssCode]
  | .ssCode => [.crc8]
  | .xbs8 | .xbs16 => [.srCode]
  | .xsr8k | .xsr16 | .xsr16t => [.caCode]
  | .crc8 => [.sfh, .pad]
  | .sfh => [.wasted, .sample, .sfh, .pad]
  | .wasted => [.sample, .sfh, .pad]
  | .sample => [.sample, .sfh, .pad]
  | .pad => [.crc16]
  | .crc16 => [.rest]

/-- How many elements may follow at the same cursor: `Elem.rank`, and above all that follows it for the wasted-bits
count, whose code no well-formed instruction leaves empty. -/
def Elem.idleSteps (e : Elem) : Nat := if e = .wasted then 2 else Elem.rank e

/-- `t` with every register given back its value in `s`, but for the cursor, the place and what the element `e` may
write before it fails. -/
def State.giveBack (t s : State) (e : Elem) : State :=
  { s with
    cur := t.cur, elem := t.elem, idxAcc := t.idxAcc, idxLeft := t.idxLeft, idxLen := t.idxLen
    mb := if e = .mbh then t.mb else s.mb
    first := if e = .mbh then t.first else s.first
    si := if e = .siBody then t.si else s.si
    seenSi := if e = .siBody then t.seenSi else s.seenSi
    fh := if Elem.isHeader e = true then t.fh else s.fh
    sf := if Elem.inSubframe e = true then t.sf else s.sf
    ch := if e = .crc8 ∨ Elem.inSubframe e = true then t.ch else s.ch
    fr := if e = .crc16 then t.fr else s.fr }

/-- The cursor went on, and not past the end. -/
def CursorWent (s t : State) : Prop := s.cur ≤ t.cur ∧ (s.cur ≤ 8 * s.len → t.cur ≤ 8 * s.len)

theorem CursorWent.of_le_rem {n : Nat} (h : n ≤ s.rem) (ht : t.cur = s.cur + n) : CursorWent s t := by
  unfold CursorWent; rw [State.rem] at h; omega

/-- `u` is `s` with registers of the element `e` written, inside the element. -/
structure Wrote (e : Elem) (s u : State) : Prop where
  kept   : u = u.giveBack s e := by rfl
  others : ∀ c : Nat, c ≠ s.ch.toNat → u.sf[c]? = s.sf[c]? := by exact fun _ _ => rfl
  cursor : CursorWent s u

/-- The element `e` is complete, and the framer goes on. -/
structure Went (e : Elem) (s t : State) : Prop where
  kept     : t = { t.giveBack s e with phase := t.phase, siValid := t.siValid, out := t.out } := by rfl
  others   : ∀ c : Nat, c ≠ s.ch.toNat → t.sf[c]? = s.sf[c]? := by exact fun _ _ => rfl
  cursor   : CursorWent s t
  next     : t.elem ∈ Elem.successors e := by simp [Elem.successors]
  phase    : t.phase = if e = .sig then .mbh else if t.elem = .rest then .frame else s.phase := by rfl
  chainEnd : Elem.isMeta e = true ∧ t.elem = .rest →
    t.siValid = true ∧ t.seenSi = 1 ∧ t.out = s.out ++ [.streamInfo t.si] := by simp [Elem.isMeta]
  noEnd    : ¬(Elem.isMeta e = true ∧ t.elem = .rest) → t.siValid = s.siValid ∧
    ∃ evs : List Event, evs.length ≤ 2 ∧ evs.all Event.isBody = true ∧ t.out = s.out ++ evs ∧
      (e ≠ .crc8 → e ≠ .crc16 → evs = []) := by exact fun _ => ⟨rfl, [], by simp⟩
  rate     : e = .siBody → t.si.sampleRateHz ≠ 0 := by exact (nomatch ·)
  progress : s.cur < t.cur ∨ Elem.idleSteps t.elem < Elem.idleSteps e

/-- What a run of the element `e` answers. -/
inductive Ran (e : Elem) (s : State) : State → Prop where
  | failed {u : State} {f : Failure} {off : Nat} (wrote : Wrote e s u)
      (listed : 1 ≤ s.fh.sampleSize.toNat → f ∈ Elem.failures e) : Ran e s (u.raise f off)
  | went {t : State} (went : Went e s t) : Ran e s t

/-! ## Every element keeps to its frame -/

theorem Wrote.refl (e : Elem) (s : State) : Wrote e s s where
  kept := by simp [State.giveBack]
  cursor := .of_le_rem (Nat.zero_le _) rfl

theorem Wrote.phase (h : Wrote e s u) : u.phase = s.phase := (congrArg State.phase h.kept :)

theorem Wrote.siValid (h : Wrote e s u) : u.siValid = s.siValid := (congrArg State.siValid h.kept :)

theorem Wrote.out (h : Wrote e s u) : u.out = s.out := (congrArg State.out h.kept :)

/-- A failure at once. -/
theorem Answers.fail_self {f : Failure} {off : Nat} (h : f ∈ Elem.failures e) : Answers (Ran e s) (fail s f off) :=
  .next (.failed (.refl e s) fun _ => h)

/-- A failure after registers of the element were written. -/
theorem Answers.fail_wrote {f : Failure} {off : Nat} (h : Wrote e s u) (hf : f ∈ Elem.failures e) :
    Answers (Ran e s) (fail u f off) := .next (.failed h fun _ => hf)

theorem execSig_ran (w : BitVec 32) : Answers (Ran .sig s) (execSig w s) := by
  unfold execSig
  refine readBits_elim (by decide) (by decide) (fun _ => .fail_self (by decide)) fun h => ?_
  split
  · exact .fail_wrote { cursor := .of_le_rem h rfl } (by decide)
  · exact .next (.went { cursor := .of_le_rem h rfl, progress := .inl (by simp) })

theorem blockHeader_ran (l : Bool) (b : BitVec 7) (n : BitVec 24) : Answers (Ran .mbh s) (blockHeader l b n s) := by
  refine blockHeader_elim (fun n mb first f off _ h hf => ?_) (fun h _ _ => ?_) (fun h _ _ => ?_)
  · exact .fail_wrote { cursor := .of_le_rem h rfl } (by rcases hf with rfl | rfl | rfl <;> decide)
  · exact .next (.went { cursor := .of_le_rem h rfl, progress := .inl (by simp) })
  · exact .next (.went { cursor := .of_le_rem h rfl, progress := .inl (by simp) })

theorem endOfBlock_ran (he : e = .siBody ∨ e = .mbBody) (h : Wrote e s u)
    (hrate : e = .siBody → u.si.sampleRateHz ≠ 0) (hprogress : s.cur < u.cur ∨ e = .mbBody) :
    Answers (Ran e s) (endOfBlock u) := by
  have noMore (p : Phase) (v : Bool) (o : List Event) (x : Elem) :
      { u with phase := p, siValid := v, out := o, elem := x } =
        { State.giveBack { u with phase := p, siValid := v, out := o, elem := x } s e with
          phase := p, siValid := v, out := o } := by
    rw [h.kept]; rcases he with rfl | rfl <;> rfl
  have idle (x : Elem) (hx : Elem.idleSteps x = 0) : s.cur < u.cur ∨ Elem.idleSteps x < Elem.idleSteps e := by
    rw [hx]; exact hprogress.imp_right fun hbody => by rw [hbody]; decide
  refine endOfBlock_elim (fun _ => .next (.went ?more)) (fun _ _ => .fail_wrote h ?listed)
    (fun _ hone => .next (.went ?last))
  case listed => rcases he with rfl | rfl <;> decide
  case more => exact {
    kept := noMore _ _ _ _
    others := h.others
    cursor := h.cursor
    next := by rcases he with rfl | rfl <;> simp [Elem.successors]
    phase := by rw [h.kept]; rcases he with rfl | rfl <;> rfl
    noEnd := fun _ => ⟨h.siValid, [], by simp [h.out]⟩
    rate := hrate
    progress := idle .mbh rfl }
  case last => exact {
    kept := noMore _ _ _ _
    others := h.others
    cursor := h.cursor
    next := by rcases he with rfl | rfl <;> simp [Elem.successors]
    phase := by rcases he with rfl | rfl <;> rfl
    chainEnd := fun _ => ⟨rfl, hone, by rw [h.kept]; rfl⟩
    noEnd := fun hn => absurd ⟨by rcases he with rfl | rfl <;> rfl, rfl⟩ hn
    rate := hrate
    progress := idle .rest rfl }

theorem execSiBody_ran (a b : BitVec 16) (c d : BitVec 24) (r : BitVec 20) (f : BitVec 3) (g : BitVec 5)
    (h : BitVec 36) (i : BitVec 128) : Answers (Ran .siBody s) (execSiBody a b c d r f g h i s) := by
  refine execSiBody_elim (fun n si f off _ hle _ _ hf => ?_) (fun hle hr => ?_)
  · exact .fail_wrote { cursor := .of_le_rem hle rfl } (by rcases hf with rfl | rfl <;> decide)
  · exact endOfBlock_ran (.inl rfl) { cursor := .of_le_rem hle rfl } (fun _ => hr) (.inl (by simp))

theorem execMbBody_ran : Answers (Ran .mbBody s) (execMbBody s) := by
  unfold execMbBody
  refine skipBytes_elim (fun _ => .fail_self (by decide)) fun hle => ?_
  exact endOfBlock_ran (.inr rfl) { cursor := .of_le_rem hle rfl } (nomatch ·) (.inr rfl)

theorem execFhWord_ran (sync : BitVec 14) (z1 b : Bool) (bsc src cac : BitVec 4) (ssc : BitVec 3) (z2 : Bool) :
    Answers (Ran .fhWord s) (execFhWord sync z1 b bsc src cac ssc z2 s) := by
  refine execFhWord_elim (fun n _ _ _ _ _ _ f off _ hle hf => ?_) (fun n _ _ _ _ _ _ e hn _ hle he => ?_)
    (fun hle _ _ _ _ _ _ _ => ?_)
  · exact .fail_wrote { cursor := .of_le_rem hle rfl } (by rcases hf with rfl | rfl <;> decide)
  · rcases he with ⟨rfl, _⟩ | ⟨rfl, _⟩ | ⟨rfl, _⟩ | ⟨rfl, _⟩
    all_goals exact .next (.went { cursor := .of_le_rem hle rfl, progress := .inl (by simp; omega) })
  · exact .next (.went { cursor := .of_le_rem hle rfl, progress := .inl (by simp) })

/-! The rows of a code read no bit. -/

theorem CursorWent.refl : CursorWent s s := .of_le_rem (Nat.zero_le _) rfl

theorem blockSizeRow_ran (c : BitVec 4) : Answers (Ran .bsCode s) (blockSizeRow c s) :=
  blockSizeRow_elim (fun _ => .fail_self (by decide))
    (fun _ _ => .next (.went { cursor := .refl, progress := .inr (by decide : 3 < 4) }))
    (fun _ => .next (.went { cursor := .refl, progress := .inr (by decide : 0 < 4) }))
    (fun _ => .next (.went { cursor := .refl, progress := .inr (by decide : 0 < 4) }))

theorem sampleRateRow_ran (c : BitVec 4) : Answers (Ran .srCode s) (sampleRateRow c s) := by
  refine sampleRateRow_elim (fun _ => .fail_self (by decide)) (fun _ _ => ?_) (fun x _ hx => ?_)
  · exact .next (.went { cursor := .refl, progress := .inr (by decide : 2 < 3) })
  · rcases hx with rfl | rfl | rfl
    all_goals exact .next (.went { cursor := .refl, progress := .inr (by decide : 0 < 3) })

theorem channelRow_ran (c : BitVec 4) : Answers (Ran .caCode s) (channelRow c s) :=
  channelRow_elim (fun _ => .fail_self (by decide))
    (fun _ _ => .next (.went { cursor := .refl, progress := .inr (by decide : 1 < 2) }))
    (fun _ => .next (.went { cursor := .refl, progress := .inr (by decide : 1 < 2) }))

theorem sampleSizeRow_ran (c : BitVec 3) : Answers (Ran .ssCode s) (sampleSizeRow c s) :=
  sampleSizeRow_elim (fun _ => .fail_self (by decide))
    (fun _ => .next (.went { cursor := .refl, progress := .inr (by decide : 0 < 1) }))
    (fun _ _ => .next (.went { cursor := .refl, progress := .inr (by decide : 0 < 1) }))

/-! The elements of the index and the escape fields read one field each. -/

theorem execIdx1_ran (v : BitVec 7) : Answers (Ran .idx s) (execIdx1 v s) :=
  execIdx1_elim (fun _ => .fail_self (by decide))
    (fun h => .next (.went { cursor := .of_le_rem h rfl, progress := .inl (by simp) }))

theorem indexFirst_ran (m : BitVec 3) (v : BitVec 36) : Answers (Ran .idx s) (indexFirst m v s) :=
  indexFirst_elim (fun _ => .fail_self (by decide))
    (fun h => .next (.went { cursor := .of_le_rem h rfl, progress := .inl (by simp) }))

theorem indexBad_ran : Answers (Ran .idx s) (indexBad s) :=
  indexBad_elim (fun _ => .fail_self (by decide))
    (fun h => .fail_wrote { cursor := .of_le_rem h rfl } (by decide))

theorem execIdxCont_ran (b : BitVec 2) (d : BitVec 6) : Answers (Ran .idxCont s) (execIdxCont b d s) :=
  execIdxCont_elim (fun _ => .fail_self (by decide))
    (fun h _ => .fail_wrote { cursor := .of_le_rem h rfl } (by decide))
    (fun h _ _ => .next (.went { cursor := .of_le_rem h rfl, progress := .inl (by simp) }))
    (fun h _ _ => .next (.went { cursor := .of_le_rem h rfl, progress := .inl (by simp) }))

theorem execXbs8_ran (v : BitVec 8) : Answers (Ran .xbs8 s) (execXbs8 v s) :=
  readBits_elim (by decide) (by decide) (fun _ => .fail_self (by decide))
    (fun h => .next (.went { cursor := .of_le_rem h rfl, progress := .inl (by simp) }))

theorem execXbs16_ran (v : BitVec 16) : Answers (Ran .xbs16 s) (execXbs16 v s) :=
  readBits_elim (by decide) (by decide) (fun _ => .fail_self (by decide))
    (fun h => .next (.went { cursor := .of_le_rem h rfl, progress := .inl (by simp) }))

theorem execXsr8k_ran (v : BitVec 8) : Answers (Ran .xsr8k s) (execXsr8k v s) :=
  readBits_elim (by decide) (by decide) (fun _ => .fail_self (by decide))
    (fun h => .next (.went { cursor := .of_le_rem h rfl, progress := .inl (by simp) }))

theorem execXsr16_ran (v : BitVec 16) : Answers (Ran .xsr16 s) (execXsr16 v s) :=
  readBits_elim (by decide) (by decide) (fun _ => .fail_self (by decide))
    (fun h => .next (.went { cursor := .of_le_rem h rfl, progress := .inl (by simp) }))

theorem execXsr16t_ran (v : BitVec 16) : Answers (Ran .xsr16t s) (execXsr16t v s) :=
  readBits_elim (by decide) (by decide) (fun _ => .fail_self (by decide))
    (fun h => .next (.went { cursor := .of_le_rem h rfl, progress := .inl (by simp) }))

/-! The two checksums may report before they go on. -/

theorem execCrc8_ran (v : BitVec 8) : Answers (Ran .crc8 s) (execCrc8 v s) := by
  refine execCrc8_elim (fun _ => .fail_self (by decide)) (fun h _ => beginChannels_elim (fun _ => ?_) fun _ => ?_)
    (fun h _ _ => .fail_wrote { cursor := .of_le_rem h rfl } (by decide))
    (fun h _ _ => beginChannels_elim (fun _ => ?_) fun _ => ?_)
  · exact .next (.went { cursor := .of_le_rem h rfl, progress := .inl (by simp) })
  · exact .next (.went { cursor := .of_le_rem h rfl, progress := .inl (by simp) })
  · exact .next (.went {
      cursor := .of_le_rem h rfl, progress := .inl (by simp)
      noEnd := fun _ => ⟨rfl, [.report Failure.headerChecksumMismatch.code s.off], by simp, rfl, rfl,
        fun h => absurd rfl h⟩ })
  · exact .next (.went {
      cursor := .of_le_rem h rfl, progress := .inl (by simp)
      noEnd := fun _ => ⟨rfl, [.report Failure.headerChecksumMismatch.code s.off], by simp, rfl, rfl,
        fun h => absurd rfl h⟩ })

/-- A frame is emitted after at most one report. -/
theorem emitFrame_ran (reports : List Event) (hlen : reports.length ≤ 1) (hbody : reports.all Event.isBody = true)
    (hcur : CursorWent s u) (hmore : s.cur < u.cur)
    (hu : u = { s with cur := u.cur, fr := u.fr, out := s.out ++ reports }) :
    Answers (Ran .crc16 s) (emitFrame u) := by
  refine .next (.went {
    kept := by rw [hu]; rfl
    others := fun _ _ => by rw [hu]
    cursor := hcur
    noEnd := fun _ => ⟨by rw [hu], reports ++ [.frame u.frameRecord], ?_, ?_, ?_, fun _ h => absurd rfl h⟩
    progress := .inl hmore })
  · simpa using hlen
  · rw [List.all_append, hbody]; rfl
  · rw [← List.append_assoc]
    exact congrArg (fun o => o ++ [Event.frame u.frameRecord]) (congrArg State.out hu)

theorem execCrc16_ran (v : BitVec 16) : Answers (Ran .crc16 s) (execCrc16 v s) :=
  execCrc16_elim (fun _ => .fail_self (by decide))
    (fun h _ => emitFrame_ran [] (by simp) rfl (.of_le_rem h rfl) (by simp) (by simp))
    (fun h _ _ => .fail_wrote { cursor := .of_le_rem h rfl } (by decide))
    (fun h _ _ => emitFrame_ran [.report Failure.frameChecksumMismatch.code s.off] (by simp) rfl (.of_le_rem h rfl)
      (by simp) rfl)

theorem execPad_ran (bs : Bits) : Answers (Ran .pad s) (execPad bs s) :=
  .next (.went {
    cursor := by unfold CursorWent; simp; omega
    progress := .inr (by decide : 0 < 1) })

/-! ## The subframe elements -/

theorem State.getElem?_setSubframe_ne {f : Subframe} {c : Nat} (h : c ≠ s.ch.toNat) :
    (s.setSubframe f).sf[c]? = s.sf[c]? := by
  rw [State.setSubframe_sf, Vector.getElem?_setIfInBounds_ne h.symm]

/-- Inside a subframe element only `SF[CH]` is written, with `f`. -/
structure WroteSubframe (s u : State) (f : Subframe) : Prop where
  entry  : u.sf = s.sf.setIfInBounds s.ch.toNat f := by rfl
  same   : u = { s with cur := u.cur, sf := u.sf } := by rfl
  cursor : CursorWent s u

theorem setIfInBounds_setIfInBounds {α : Type} {n : Nat} (v : Vector α n) (i : Nat) (a b : α) :
    (v.setIfInBounds i a).setIfInBounds i b = v.setIfInBounds i b := by
  apply Vector.ext
  intro j hj
  simp only [Vector.getElem_setIfInBounds]
  split <;> rfl

theorem WroteSubframe.ch {f : Subframe} (h : WroteSubframe s u f) : u.ch = s.ch := (congrArg State.ch h.same :)

theorem WroteSubframe.fh {f : Subframe} (h : WroteSubframe s u f) : u.fh = s.fh := (congrArg State.fh h.same :)

/-- Writing the entry again. -/
theorem WroteSubframe.setSubframe {f : Subframe} (h : WroteSubframe s u f) (g : Subframe) :
    WroteSubframe s (u.setSubframe g) g where
  entry := by
    rw [State.setSubframe_sf, h.entry, h.ch, setIfInBounds_setIfInBounds]
  same := by rw [h.same]; rfl
  cursor := h.cursor

/-- The entry read back. -/
theorem WroteSubframe.get {f g : Subframe} (h : WroteSubframe s u f) (hg : u.sf[u.ch.toNat]? = some g) : g = f := by
  rw [h.entry, h.ch, Vector.getElem?_setIfInBounds_self] at hg
  split at hg <;> simp_all

/-- It keeps to the frame of every subframe element, whatever then becomes of `CH` and the place. -/
theorem WroteSubframe.wrote {f : Subframe} (h : WroteSubframe s u f) (he : Elem.inSubframe e = true) (c : BitVec 4)
    (x : Elem) : Wrote e s { u with ch := c, elem := x } where
  kept := by
    rw [h.same]
    cases e with
    | sfh | wasted | sample => rfl
    | _ => cases he
  others c hc := by
    rw [show State.sf { u with ch := _, elem := x } = u.sf from rfl, h.entry]
    exact State.getElem?_setSubframe_ne hc
  cursor := h.cursor

/-- A subframe element goes on to another one or to the footer. -/
theorem Went.of_wrote (he : Elem.inSubframe e = true) (h : Wrote e s u) (hnext : u.elem ∈ Elem.successors e)
    (hprogress : s.cur < u.cur ∨ Elem.idleSteps u.elem < Elem.idleSteps e) : Went e s u := by
  have hmeta : Elem.isMeta e = false ∧ e ≠ .sig ∧ e ≠ .siBody := by
    cases e with
    | sfh | wasted | sample => decide
    | _ => cases he
  have hrest : u.elem ≠ .rest := by
    intro hr
    rw [hr] at hnext
    cases e with
    | sfh | wasted | sample => simp [Elem.successors] at hnext
    | _ => cases he
  exact {
    kept := by rw [h.phase, h.siValid, h.out]; exact h.kept
    others := h.others
    cursor := h.cursor
    next := hnext
    phase := by rw [if_neg hmeta.2.1, if_neg hrest, h.phase]
    chainEnd := fun hc => absurd hc.2 hrest
    noEnd := fun _ => ⟨h.siValid, [], by simp [h.out]⟩
    rate := fun hs => absurd hs hmeta.2.2
    progress := hprogress }

theorem nextChannel_ran {f : Subframe} (he : Elem.inSubframe e = true) (h : WroteSubframe s u f)
    (hprogress : s.cur < u.cur ∨ e = .wasted) : Answers (Ran e s) (nextChannel u) := by
  have hmove (x : Elem) (hx : x = .sfh ∨ x = .pad) : Went e s { u with ch := u.ch + 1, elem := x } := by
    refine .of_wrote he (h.wrote he _ _) ?_ (hprogress.imp_right fun hw => ?_)
    · cases e with
      | sfh | wasted | sample => rcases hx with rfl | rfl <;> simp [Elem.successors]
      | _ => cases he
    · subst hw; rcases hx with rfl | rfl
      · exact (by decide : 0 < 2)
      · exact (by decide : 1 < 2)
  exact nextChannel_elim (fun _ => .next (.went (hmove .sfh (.inl rfl)))) fun _ => .next (.went (hmove .pad (.inr rfl)))

/-- Where no wasted bits are counted, a sample size of 1 or more leaves a width. -/
theorem one_le_sampleWidth {size : BitVec 6} (h : 1 ≤ size.toNat) (cls : ChannelClass) (c : Nat) :
    1 ≤ sampleWidth (channelWidth size cls c) 0 := by
  rw [sampleWidth_zero]
  exact Int.ofNat_le.2 (h.trans (sampleSize_le_channelWidth size cls c))

theorem beginSamples_ran {f : Subframe} {off : Nat} (he : e = .sfh ∨ e = .wasted) (h : WroteSubframe s u f)
    (hprogress : s.cur < u.cur ∨ e = .wasted) (hcount : e = .sfh → f.wastedBitCount = 0) :
    Answers (Ran e s) (beginSamples off u) := by
  have hin : Elem.inSubframe e = true := by rcases he with rfl | rfl <;> rfl
  refine beginSamples_elim (fun _ => .fault _)
    (fun g hg hlow => .next (.failed (h.wrote hin u.ch u.elem) fun hsize => ?low))
    (fun g _ _ w _ _ _ => .next (.went ?samples))
    (fun g _ _ w _ _ _ => nextChannel_ran hin (h.setSubframe _) hprogress)
  case low =>
    rcases he with rfl | rfl
    · rw [h.get hg, hcount rfl, h.fh] at hlow
      exact absurd hlow (Int.not_lt.2 (one_le_sampleWidth hsize _ _))
    · simp [Elem.failures]
  case samples =>
    refine .of_wrote hin ((h.setSubframe _).wrote hin u.ch _) ?_ (hprogress.imp_right fun hw => ?_)
    · rcases he with rfl | rfl <;> simp [Elem.successors]
    · subst hw; exact (by decide : 0 < 2)

theorem subframeHeader_ran (z w : Bool) (b : BitVec 6) : Answers (Ran .sfh s) (subframeHeader z b w s) := by
  have typed (f : Subframe) (n : Nat) (hn : n ≤ s.rem) :
      WroteSubframe s { s.setSubframe f with cur := s.cur + n } f := { cursor := .of_le_rem hn rfl }
  refine subframeHeader_elim (fun _ => .fault _)
    (fun n f _ hle _ => .fail_wrote { cursor := .of_le_rem hle rfl } (by decide))
    (fun f h7 _ => .fail_wrote ((typed _ 7 h7.ge).wrote rfl _ _) (by decide))
    (fun f h _ _ => .fail_wrote { cursor := .of_le_rem h rfl } (by decide))
    (fun f h7 _ _ _ => .fail_wrote ((typed _ 7 h7).wrote rfl _ _) (by decide))
    (fun f h7 _ _ _ _ => .fail_wrote ((typed _ 7 h7).wrote rfl _ _) (by decide))
    (fun f h8 _ _ _ _ => .next (.went (.of_wrote rfl ((typed _ 8 h8).wrote rfl s.ch .wasted) ?_ (.inl ?_))))
    (fun f h8 _ _ _ _ => beginSamples_ran (.inl rfl) (typed _ 8 h8) (.inl ?_) (fun _ => rfl))
  · simp [Elem.successors]
  · simp
  · simp

theorem execWasted_ran (k : Nat) : Answers (Ran .wasted s) (execWasted k s) :=
  execWasted_elim (fun _ => .fault _) (fun _ _ _ => .fail_self (by decide))
    (fun f _ hle => beginSamples_ran (.inr rfl) { cursor := .of_le_rem hle rfl } (.inr rfl) (nomatch ·))

theorem execSample_ran (w : Nat) (v : BitVec 36) : Answers (Ran .sample s) (execSample w v s) := by
  have stored (f : Subframe) (hle : w ≤ s.rem) :
      WroteSubframe s { s.setSubframe f with cur := s.cur + w } f := { cursor := .of_le_rem hle rfl }
  refine execSample_elim (fun _ => .fault _) (fun _ => .refused _) (fun _ _ _ => .fail_self (by decide))
    (fun f _ _ hw hle _ => .next (.went (.of_wrote rfl ((stored _ hle).wrote rfl s.ch .sample) ?_ (.inl ?_))))
    (fun f _ _ hw hle _ => nextChannel_ran rfl (stored _ hle) (.inl ?_))
  · simp [Elem.successors]
  · exact Nat.lt_add_of_pos_right hw
  · exact Nat.lt_add_of_pos_right hw

/-! ## All elements at once -/

/-- What an instruction answers: the element has failed, or gone on. -/
theorem exec_ran (i : Instr) (s : State) : Answers (Ran i.elem s) (exec i s) :=
  exec_elim (fun h w => h ▸ execSig_ran w) (fun h l b n => h ▸ blockHeader_ran l b n)
    (fun h a b c d r f g t i => h ▸ execSiBody_ran a b c d r f g t i) (fun h => h ▸ execMbBody_ran)
    (fun h a b c d e f g i => h ▸ execFhWord_ran a b c d e f g i)
    (fun h c => h ▸ blockSizeRow_ran c) (fun h c => h ▸ sampleRateRow_ran c) (fun h c => h ▸ channelRow_ran c)
    (fun h c => h ▸ sampleSizeRow_ran c) (fun h v => h ▸ execIdx1_ran v) (fun h m v _ => h ▸ indexFirst_ran m v)
    (fun h => h ▸ indexBad_ran) (fun h b d => h ▸ execIdxCont_ran b d) (fun h v => h ▸ execXbs8_ran v)
    (fun h v => h ▸ execXbs16_ran v) (fun h v => h ▸ execXsr8k_ran v) (fun h v => h ▸ execXsr16_ran v)
    (fun h v => h ▸ execXsr16t_ran v) (fun h v => h ▸ execCrc8_ran v) (fun h z b w => h ▸ subframeHeader_ran z w b)
    (fun h k => h ▸ execWasted_ran k) (fun h w v => h ▸ execSample_ran w v) (fun h bs => h ▸ execPad_ran bs)
    (fun h v => h ▸ execCrc16_ran v)

/-- What the framer's own step answers: the same state at rest, else what the element under way answers. -/
theorem runElement_ran (s : State) :
    Answers (fun t => s.elem = .rest ∧ t = s ∨ s.elem ≠ .rest ∧ Ran s.elem s t) (runElement s) := by
  by_cases h : s.elem = .rest
  · rw [runElement, fetch_rest h]
    exact .next (.inl ⟨h, rfl⟩)
  · obtain ⟨i, hi⟩ := fetch_isSome h
    rw [runElement_of_fetch hi, ← fetch_elem hi]
    exact (exec_ran i s).mono fun t ht => .inr ⟨fetch_elem hi ▸ h, ht⟩

end Sys2Proof.Machine
end

section
/-!
What follows from `Ran` for every step: the invariants of a run that need no more than the frame and the successors
of an element.
-/

namespace Sys2Proof.Machine

variable {s t u : State} {e : Elem}

/-! ## Registers that no element writes -/

theorem Ran.mem (h : Ran e s t) : t.mem = s.mem := by
  cases h with
  | failed wrote _ => exact (congrArg State.mem wrote.kept :)
  | went went => exact (congrArg State.mem went.kept :)

theorem Ran.len (h : Ran e s t) : t.len = s.len := by
  cases h with
  | failed wrote _ => exact (congrArg State.len wrote.kept :)
  | went went => exact (congrArg State.len went.kept :)

theorem Ran.params (h : Ran e s t) : t.params = s.params := by
  cases h with
  | failed wrote _ => exact (congrArg State.params wrote.kept :)
  | went went => exact (congrArg State.params went.kept :)

theorem Ran.host (h : Ran e s t) : t.host = s.host := by
  cases h with
  | failed wrote _ => exact (congrArg State.host wrote.kept :)
  | went went => exact (congrArg State.host went.kept :)

theorem Ran.lenient (h : Ran e s t) : t.lenient = s.lenient := by
  cases h with
  | failed wrote _ => exact (congrArg State.lenient wrote.kept :)
  | went went => exact (congrArg State.lenient went.kept :)

theorem Ran.policy (h : Ran e s t) : t.policy = s.policy := by
  cases h with
  | failed wrote _ => exact (congrArg State.policy wrote.kept :)
  | went went => exact (congrArg State.policy went.kept :)

theorem Ran.cursor (h : Ran e s t) : CursorWent s t := by
  cases h with
  | failed wrote _ => exact wrote.cursor
  | went went => exact went.cursor

theorem Ran.readByte? (h : Ran e s t) (a : Nat) : t.readByte? a = s.readByte? a := by
  rw [State.readByte?, State.readByte?, h.len, h.mem]

/-! ## Invariants of a step -/

/-- `I` holds after every step from a state with `J`, which implies it, when it holds after an element's step and after
each move of the host. (An invariant is the case `J = I`.) -/
theorem step_establishes {J I : State → Prop} (pop : ∀ s, J s → J s.popHost) (weaken : ∀ s, J s → I s)
    (own : ∀ s, J s → s.elem ≠ .rest → Answers I (runElement s))
    (reset : ∀ s, J s → I s.toReset)
    (start : ∀ s, J s → s.atBoundary = true → s.phase = .idle →
      I { s with cur := 0, policy := s.lenient, phase := .sig, elem := .sig })
    (ends : ∀ s, J s → s.atBoundary = true → s.phase = .frame → s.cur = 8 * s.len →
      I { s with out := s.out ++ [.endOfStream], phase := .done })
    (frame : ∀ s, J s → s.atBoundary = true → s.phase = .frame → I { s with elem := .fhWord })
    (lenient : ∀ s b, J s → I { s with lenient := b })
    (input : ∀ s bytes, J s → s.phase = .idle → I { s with mem := Memory.ofBytes 0 bytes, len := bytes.length })
    (s t : State) (h : J s) (hstep : step s = .next t) : I t := by
  have run (s : State) (h : J s) : Answers I (runElement s) := by
    by_cases hr : s.elem = .rest
    · rw [runElement, fetch_rest hr]; exact .next (weaken s h)
    · exact own s h hr
  refine (step_elim (P := Answers I) (fun _ => run s h) (fun _ => run _ (pop s h)) fun a ha _ => ?_) t hstep
  have hb : s.popHost.atBoundary = true := (pendingAction_some ha).1
  have hp := pop s h
  exact hostMove_elim (fun _ => .next (reset _ hp)) (fun _ hi => .next (start _ hp hb hi))
    (fun _ hf he => .next (ends _ hp hb hf he)) (fun _ hf _ => .next (frame _ hp hb hf))
    (fun b _ => .next (lenient _ b hp)) (fun bytes _ hi => .next (input _ bytes hp hi)) (fun _ _ _ => .refused _)
    (fun _ => .next (weaken _ hp))

/-- The own step from a state with an element under way, through `Ran`. -/
theorem Answers.of_ran {Q : State → Prop} (he : s.elem ≠ .rest) (h : ∀ t, Ran s.elem s t → Q t) :
    Answers Q (runElement s) :=
  (runElement_ran s).mono fun t ht => ht.elim (fun hr => absurd hr.1 he) fun hr => h t hr.2

/-! ## The cursor, the input and the place -/

theorem Ran.cursorInside (h : s.CursorInside) (he : s.elem ≠ .rest) (hr : Ran s.elem s t) : t.CursorInside := by
  obtain ⟨hcur, hidle⟩ := h
  refine ⟨by rw [hr.len]; exact hr.cursor.2 hcur, fun hp => ?_⟩
  cases hr with
  | failed _ _ => cases hp
  | went went =>
    have hphase := went.phase
    rw [hp] at hphase
    split at hphase
    · cases hphase
    · split at hphase
      · cases hphase
      · exact absurd (hidle hphase.symm).2 he

/-- Settles O47: an element moves the cursor inside the input only, and `START`, which clears it, leaves `P_IDLE`. -/
theorem cursorStaysInside : Obligations.CursorStaysInside := by
  refine step_establishes (fun s h => h) (fun s h => h) (fun s h he => .of_ran he fun t hr => hr.cursorInside h he)
    (fun s _ => ⟨Nat.zero_le _, fun _ => ⟨rfl, rfl⟩⟩) (fun s _ _ _ => ⟨Nat.zero_le _, (nomatch ·)⟩)
    (fun s h _ _ _ => ⟨h.1, (nomatch ·)⟩) (fun s h _ hf => ⟨h.1, fun hi => ?_⟩) (fun s b h => h)
    (fun s bytes h hi => ⟨?_, h.2⟩)
  · exact nomatch hf.symm.trans hi
  · rw [(h.2 hi).1]; exact Nat.zero_le _

/-- Settles O48: no element writes the input, and what the host sets is canonical. -/
theorem inputStaysCanonical : Obligations.InputStaysCanonical :=
  step_establishes (fun s h => h) (fun s h => h)
    (fun s h he => .of_ran he fun t hr => by rw [State.InputCanonical, hr.mem, hr.len]; exact h) (fun s h => h)
    (fun s h _ _ => h) (fun s h _ _ _ => h) (fun s h _ _ => h) (fun s b h => h)
    (fun s bytes _ _ => ⟨Memory.ofBytes_wf bytes, by simpa using Memory.ofBytes_below bytes 0⟩)

theorem State.placeAgrees_rest (h : s.elem = .rest) : s.PlaceAgrees ↔ s.phase ≠ .sig ∧ s.phase ≠ .mbh := by
  rw [State.PlaceAgrees, h]

/-- Where an element is under way, the phase is the element's. -/
theorem State.placeAgrees_iff (h : s.elem ≠ .rest) : s.PlaceAgrees ↔ s.phase = Elem.phase s.elem s.phase := by
  rw [State.PlaceAgrees]
  cases he : s.elem with
  | rest => exact absurd he h
  | _ => rfl

theorem Elem.phase_eq_of_ne_rest (h : e ≠ .rest) (p q : Phase) : Elem.phase e p = Elem.phase e q := by
  cases e with
  | rest => exact absurd rfl h
  | _ => rfl

/-- The signature leads to the chain; else an element's successor is of its phase, unless the framer comes to rest. -/
theorem phase_of_mem_successors (p : Phase) :
    ∀ x ∈ Elem.successors e, x ≠ .rest → (if e = .sig then .mbh else Elem.phase e p) = Elem.phase x p := by
  cases e <;> simp [Elem.successors, Elem.phase]

theorem Went.elem_ne_sig (h : Went e s t) (hr : t.elem = .rest) : e ≠ .sig := by
  rintro rfl
  have := h.next
  rw [hr] at this
  simp [Elem.successors] at this

theorem Went.phase_of_rest (h : Went e s t) (hr : t.elem = .rest) : t.phase = .frame := by
  rw [h.phase, if_neg (h.elem_ne_sig hr), if_pos hr]

theorem Ran.placeAgrees (h : s.PlaceAgrees) (he : s.elem ≠ .rest) (hr : Ran s.elem s t) : t.PlaceAgrees := by
  cases hr with
  | failed _ _ => exact ⟨(nomatch ·), (nomatch ·)⟩
  | went went =>
    by_cases hrest : t.elem = .rest
    · rw [State.placeAgrees_rest hrest, went.phase_of_rest hrest]
      exact ⟨(nomatch ·), (nomatch ·)⟩
    · have hphase := went.phase
      rw [if_neg hrest, (State.placeAgrees_iff he).1 h] at hphase
      rw [State.placeAgrees_iff hrest, ← phase_of_mem_successors t.phase t.elem went.next hrest,
        Elem.phase_eq_of_ne_rest he t.phase s.phase]
      exact hphase

/-- At a boundary the framer is at rest, or the phase is the signature's or the chain's. -/
theorem State.PlaceAgrees.elem_of_boundary (h : s.PlaceAgrees) (hb : s.atBoundary = true) (hs : s.phase ≠ .sig)
    (hm : s.phase ≠ .mbh) : s.elem = .rest := by
  unfold State.PlaceAgrees at h
  unfold State.atBoundary at hb
  cases he : s.elem with
  | rest => rfl
  | sig => rw [he] at h; exact absurd h hs
  | mbh => rw [he] at h; exact absurd h hm
  | _ => rw [he] at hb; cases hb

/-- Settles O49: an element's successors are of its phase, and a host's move is taken at a boundary. -/
theorem placeStaysAgreed : Obligations.PlaceStaysAgreed := by
  refine step_establishes (fun s h => h) (fun s h => h) (fun s h he => .of_ran he fun t hr => hr.placeAgrees h he)
    (fun s _ => ⟨(nomatch ·), (nomatch ·)⟩) (fun s _ _ _ => rfl) (fun s h hb hf _ => ?_) (fun s _ _ hf => hf)
    (fun s b h => h) (fun s bytes h _ => h)
  have hr : s.elem = .rest := h.elem_of_boundary hb (by simp [hf]) (by simp [hf])
  exact (State.placeAgrees_rest (s := { s with out := _, phase := .done }) hr).2 ⟨(nomatch ·), (nomatch ·)⟩

/-! ## The shape of a run -/

/-- The state at rest in `P_DONE` or `P_ERR` is the only one with a last event. -/
theorem State.lastEvents_eq_nil (hd : s.phase ≠ .done) (he : s.phase ≠ .err) : s.lastEvents = [] := by
  unfold State.lastEvents
  cases h : s.phase with
  | done => exact absurd h hd
  | err => exact absurd h he
  | _ => rfl

theorem State.PlaceAgrees.not_over (h : s.PlaceAgrees) (he : s.elem ≠ .rest) :
    s.phase ≠ .idle ∧ s.phase ≠ .done ∧ s.phase ≠ .err := by
  rw [(State.placeAgrees_iff he).1 h]
  cases hel : s.elem with
  | rest => exact absurd hel he
  | _ => exact ⟨(nomatch ·), (nomatch ·), (nomatch ·)⟩

theorem State.PlaceAgrees.phase_of_isMeta (h : s.PlaceAgrees) (hm : Elem.isMeta s.elem = true) :
    s.elem = .sig ∧ s.phase = .sig ∨ s.elem ≠ .sig ∧ s.phase = .mbh := by
  unfold State.PlaceAgrees at h
  cases he : s.elem with
  | sig => rw [he] at h; exact .inl ⟨rfl, h⟩
  | mbh | siBody | mbBody => rw [he] at h; exact .inr ⟨(nomatch ·), h⟩
  | _ => rw [he] at hm; cases hm

/-- After the chain the phase is that of the frames. -/
theorem State.PlaceAgrees.phase_of_not_isMeta (h : s.PlaceAgrees) (hm : Elem.isMeta s.elem = false)
    (hr : s.elem ≠ .rest) : s.phase = .frame := by
  rw [(State.placeAgrees_iff hr).1 h]
  cases he : s.elem with
  | rest => exact absurd he hr
  | sig | mbh | siBody | mbBody => rw [he] at hm; cases hm
  | _ => rfl

/-- An element of the chain is read before `SI_VALID` is set. -/
theorem State.RunShape.siValid_of_isMeta (h : s.RunShape) (hp : s.PlaceAgrees) (hm : Elem.isMeta s.elem = true) :
    s.siValid = false :=
  h.notValidYet (.inr ((hp.phase_of_isMeta hm).imp (·.2) (·.2)))

theorem Wrote.runShape_raise {f : Failure} {off : Nat} (hp : s.PlaceAgrees) (h : s.RunShape) (he : s.elem ≠ .rest)
    (hw : Wrote s.elem s u) : (u.raise f off).RunShape := by
  obtain ⟨_, hdone, herr⟩ := hp.not_over he
  have hcode : f.code ≠ 0 := by cases f <;> decide
  -- Where `SI_VALID` is set, the element is none of the chain, and the StreamInfo registers are untouched.
  have hsi : s.siValid = true → u.seenSi = s.seenSi ∧ u.si = s.si := fun hv => by
    have hne : s.elem ≠ .siBody := fun hel => by
      rw [h.siValid_of_isMeta hp (by rw [hel]; rfl)] at hv; cases hv
    have := hw.kept
    rw [this]
    simp [State.giveBack, hne]
  obtain ⟨body, hbody, hempty, hout⟩ := h.output
  rw [State.lastEvents_eq_nil hdone herr, List.append_nil] at hout
  exact {
    errOnlyInErr := iff_of_false hcode (not_not_intro rfl)
    validInFrame := by simp
    notValidYet := by simp
    oneBlock := fun hv => by
      rw [State.raise_siValid, hw.siValid] at hv
      rw [State.raise_seenSi, (hsi hv).1, h.oneBlock hv]
    chainUnread := by simp
    rateNonzero := fun hv => by
      have hv : s.siValid = true := by simpa [hw.siValid] using hv
      rw [State.raise_si, (hsi hv).2]
      exact h.rateNonzero (.inl hv)
    doneAtEnd := by simp
    output := by
      refine ⟨body, hbody, by simpa [hw.siValid] using hempty, ?_⟩
      rw [State.raise_out, State.raise_siValid, State.raise_si, hw.out, hw.siValid, hout]
      cases hv : s.siValid with
      | true => rw [(hsi hv).2]; rfl
      | false => rfl }

/-- What an element that goes on does to `ERR` and to the StreamInfo registers. -/
theorem Went.err (h : Went e s t) : t.err = s.err := (congrArg State.err h.kept :)

theorem Went.si_of_ne_siBody (h : Went e s t) (he : e ≠ .siBody) : t.si = s.si ∧ t.seenSi = s.seenSi := by
  have := h.kept
  rw [this]
  simp [State.giveBack, he]

/-- Inside the chain nothing has been emitted. -/
theorem State.RunShape.out_of_isMeta (h : s.RunShape) (hp : s.PlaceAgrees) (he : s.elem ≠ .rest)
    (hm : Elem.isMeta s.elem = true) : s.out = [] := by
  obtain ⟨_, hdone, herr⟩ := hp.not_over he
  obtain ⟨body, _, hempty, hout⟩ := h.output
  have hv := h.siValid_of_isMeta hp hm
  rw [hout, hempty hv, hv, State.lastEvents_eq_nil hdone herr]
  rfl

/-- A nonzero count of StreamInfo blocks inside the chain: the rate decoded is nonzero. -/
theorem Went.rateNonzero (h : s.RunShape) (hp : s.PlaceAgrees) (hm : Elem.isMeta s.elem = true)
    (hw : Went s.elem s t) (hn : t.seenSi ≠ 0) : t.si.sampleRateHz ≠ 0 := by
  by_cases hb : s.elem = .siBody
  · exact hw.rate hb
  · obtain ⟨hsi, hseen⟩ := hw.si_of_ne_siBody hb
    rw [hseen] at hn
    rw [hsi]
    rcases hp.phase_of_isMeta hm with ⟨_, hs⟩ | ⟨_, hm⟩
    · exact absurd (h.chainUnread (.inr hs)).2 hn
    · exact h.rateNonzero (.inr ⟨hm, hn⟩)

theorem Went.runShape (hp : s.PlaceAgrees) (h : s.RunShape) (he : s.elem ≠ .rest) (hw : Went s.elem s t) :
    t.RunShape := by
  obtain ⟨_, hdone, herr⟩ := hp.not_over he
  have herr0 : t.err = 0 := by rw [hw.err]; exact h.errOnlyInErr.2 herr
  by_cases hm : Elem.isMeta s.elem = true
  · have hv := h.siValid_of_isMeta hp hm
    have hout := h.out_of_isMeta hp he hm
    by_cases hr : t.elem = .rest
    · obtain ⟨hvalid, hone, hev⟩ := hw.chainEnd ⟨hm, hr⟩
      have hf := hw.phase_of_rest hr
      exact {
        errOnlyInErr := by simp [herr0, hf]
        validInFrame := fun _ => hvalid
        notValidYet := by simp [hf]
        oneBlock := fun _ => hone
        chainUnread := by simp [hf]
        rateNonzero := fun _ => hw.rateNonzero h hp hm (by simp [hone])
        doneAtEnd := by simp [hf]
        output := ⟨[], rfl, fun _ => rfl, by simp [hvalid, hev, hout, State.lastEvents, hf]⟩ }
    · obtain ⟨hvalid, evs, _, _, hev, hnone⟩ := hw.noEnd fun hc => hr hc.2
      have hphase : t.phase = .mbh := by
        rw [hw.phase, if_neg hr]
        rcases hp.phase_of_isMeta hm with ⟨hs, _⟩ | ⟨hs, hm⟩
        · rw [if_pos hs]
        · rw [if_neg hs, hm]
      rw [hv] at hvalid
      have hev8 : s.elem ≠ .crc8 := fun hs => by rw [hs] at hm; cases hm
      have hev16 : s.elem ≠ .crc16 := fun hs => by rw [hs] at hm; cases hm
      rw [hnone hev8 hev16, hout] at hev
      exact {
        errOnlyInErr := by simp [herr0, hphase]
        validInFrame := by simp [hphase]
        notValidYet := fun _ => hvalid
        oneBlock := by simp [hvalid]
        chainUnread := by simp [hphase]
        rateNonzero := fun hx => hw.rateNonzero h hp hm (by simpa [hvalid, hphase] using hx)
        doneAtEnd := by simp [hphase]
        output := ⟨[], rfl, fun _ => rfl, by simp [hvalid, hev, State.lastEvents, hphase]⟩ }
  · have hm : Elem.isMeta s.elem = false := by simpa using hm
    have hf := hp.phase_of_not_isMeta hm he
    have hv := h.validInFrame (.inl hf)
    have hsig : s.elem ≠ .sig := fun hs => by rw [hs] at hm; cases hm
    have hphase : t.phase = .frame := by rw [hw.phase, if_neg hsig, hf, ite_self]
    obtain ⟨hvalid, evs, _, hbody, hev, _⟩ := hw.noEnd (by simp [hm])
    obtain ⟨hsi, hseen⟩ := hw.si_of_ne_siBody fun hs => by rw [hs] at hm; cases hm
    obtain ⟨body, hall, hempty, hout⟩ := h.output
    rw [State.lastEvents_eq_nil hdone herr, List.append_nil] at hout
    rw [hv] at hvalid
    exact {
      errOnlyInErr := by simp [herr0, hphase]
      validInFrame := fun _ => hvalid
      notValidYet := by simp [hphase]
      oneBlock := fun _ => by rw [hseen, h.oneBlock hv]
      chainUnread := by simp [hphase]
      rateNonzero := fun _ => by rw [hsi]; exact h.rateNonzero (.inl hv)
      doneAtEnd := by simp [hphase]
      output := ⟨body ++ evs, by simp [hall, hbody], by simp [hvalid],
        by simp [hev, hout, hv, hvalid, hsi, State.lastEvents, hphase]⟩ }

theorem Ran.runShape (hp : s.PlaceAgrees) (h : s.RunShape) (he : s.elem ≠ .rest) (hr : Ran s.elem s t) :
    t.RunShape := by
  cases hr with
  | failed wrote _ => exact wrote.runShape_raise hp h he
  | went went => exact went.runShape hp h he

/-- The shape stays when only registers it does not speak of change. -/
theorem State.RunShape.congr (h : s.RunShape) (hphase : t.phase = s.phase) (herr : t.err = s.err)
    (hoff : t.errOff = s.errOff) (hvalid : t.siValid = s.siValid) (hseen : t.seenSi = s.seenSi)
    (hfirst : t.first = s.first) (hsi : t.si = s.si) (hout : t.out = s.out)
    (hcur : s.phase = .done → t.cur = s.cur ∧ t.len = s.len) : t.RunShape where
  errOnlyInErr := by rw [herr, hphase]; exact h.errOnlyInErr
  validInFrame := by rw [hphase, hvalid]; exact h.validInFrame
  notValidYet := by rw [hphase, hvalid]; exact h.notValidYet
  oneBlock := by rw [hvalid, hseen]; exact h.oneBlock
  chainUnread := by rw [hphase, hfirst, hseen]; exact h.chainUnread
  rateNonzero := by rw [hvalid, hphase, hseen, hsi]; exact h.rateNonzero
  doneAtEnd hd := by rw [hphase] at hd; rw [(hcur hd).1, (hcur hd).2]; exact h.doneAtEnd hd
  output := by
    unfold State.lastEvents
    rw [hvalid, hsi, hout, hphase, herr, hoff]
    exact h.output

theorem reset_runShape : State.reset.RunShape where
  errOnlyInErr := by simp [State.reset]
  validInFrame := by simp [State.reset]
  notValidYet := by simp [State.reset]
  oneBlock := by simp [State.reset]
  chainUnread := by simp [State.reset]
  rateNonzero := by simp [State.reset]
  doneAtEnd := by simp [State.reset]
  output := ⟨[], by simp [State.reset, State.lastEvents]⟩

/-- Settles O52: each element's step keeps the shape; of the host's moves `START` needs `P_IDLE`, `NEXT` `P_FRAME`. -/
theorem runShapeKept : Obligations.RunShapeKept := by
  refine fun s t hp h => step_establishes (J := fun s => s.PlaceAgrees ∧ s.RunShape)
    (fun s h => ⟨h.1, h.2.congr rfl rfl rfl rfl rfl rfl rfl rfl fun _ => ⟨rfl, rfl⟩⟩) (fun s h => h.2)
    (fun s h he => .of_ran he fun t hr => hr.runShape h.1 h.2 he) (fun s _ => ?reset) (fun s h _ hi => ?start)
    (fun s h _ hf hend => ?ends)
    (fun s h _ _ => h.2.congr rfl rfl rfl rfl rfl rfl rfl rfl fun _ => ⟨rfl, rfl⟩)
    (fun s b h => h.2.congr rfl rfl rfl rfl rfl rfl rfl rfl fun _ => ⟨rfl, rfl⟩)
    (fun s bytes h hi => h.2.congr rfl rfl rfl rfl rfl rfl rfl rfl fun hd => nomatch hi.symm.trans hd) s t ⟨hp, h⟩
  case reset => exact reset_runShape.congr rfl rfl rfl rfl rfl rfl rfl rfl (nomatch ·)
  case start =>
    have hv := h.2.notValidYet (.inl hi)
    have hchain := h.2.chainUnread (.inl hi)
    obtain ⟨body, _, hempty, hout⟩ := h.2.output
    exact {
      errOnlyInErr := iff_of_true (h.2.errOnlyInErr.2 (by simp [hi])) (nomatch ·)
      validInFrame := by simp
      notValidYet := fun _ => hv
      oneBlock := h.2.oneBlock
      chainUnread := fun _ => hchain
      rateNonzero := by simp [hv]
      doneAtEnd := by simp
      output := ⟨[], rfl, fun _ => rfl, by simp [hout, hempty hv, hv, State.lastEvents, hi]⟩ }
  case ends =>
    have hv := h.2.validInFrame (.inl hf)
    obtain ⟨body, hall, _, hout⟩ := h.2.output
    exact {
      errOnlyInErr := iff_of_true (h.2.errOnlyInErr.2 (by simp [hf])) (nomatch ·)
      validInFrame := fun _ => hv
      notValidYet := by simp
      oneBlock := h.2.oneBlock
      chainUnread := by simp
      rateNonzero := by simpa [hf, hv] using h.2.rateNonzero
      doneAtEnd := fun _ => hend
      output := ⟨body, hall, by simp [hv], by simp [hout, hv, State.lastEvents, hf]⟩ }

/-! ## The input, the policy and the output -/

/-- What holds of every step but a command that changes the phase and a setting of the host. -/
structure Quiet (s t : State) : Prop where
  params  : t.params = s.params := by rfl
  len     : t.len = s.len := by rfl
  mem     : t.mem = s.mem := by rfl
  policy  : t.policy = s.policy := by rfl
  lenient : t.lenient = s.lenient := by rfl
  out     : ∃ evs : List Event, evs.length ≤ 2 ∧ t.out = s.out ++ evs

theorem Ran.out (h : Ran e s t) : ∃ evs : List Event, evs.length ≤ 2 ∧ t.out = s.out ++ evs := by
  cases h with
  | @failed u f off wrote _ => exact ⟨[.error f.code off], by simp, by simp [wrote.out]⟩
  | went went =>
    by_cases hc : Elem.isMeta e = true ∧ t.elem = .rest
    · exact ⟨[.streamInfo t.si], by simp, (went.chainEnd hc).2.2⟩
    · obtain ⟨_, evs, hlen, _, hout, _⟩ := went.noEnd hc
      exact ⟨evs, hlen, hout⟩

theorem Quiet.refl (s : State) : Quiet s s := { out := ⟨[], by simp⟩ }

theorem runElement_quiet (s : State) : Answers (Quiet s) (runElement s) := by
  refine (runElement_ran s).mono fun t ht => ?_
  rcases ht with ⟨_, rfl⟩ | ⟨_, h⟩
  · exact .refl t
  · exact { params := h.params, len := h.len, mem := h.mem, policy := h.policy, lenient := h.lenient, out := h.out }

theorem Quiet.readByte? (h : Quiet s t) (a : Nat) : t.readByte? a = s.readByte? a := by
  rw [State.readByte?, State.readByte?, h.len, h.mem]

/-- Who may change what: the host its input and `CTRL.LENIENT`, an accepted `START` the policy, `RESET` all but the
input and the parameters. -/
structure Controlled (s t : State) : Prop where
  params  : t.params = s.params
  input   : (∀ bytes, s.pendingAction ≠ some (.setInput bytes)) →
    t.len = s.len ∧ ∀ a, t.readByte? a = s.readByte? a
  policy  : t.policy ≠ s.policy → (s.pendingAction = some .start ∧ s.phase = .idle ∧ t.policy = s.lenient) ∨
    s.pendingAction = some .reset
  lenient : t.lenient ≠ s.lenient → (∃ b, s.pendingAction = some (.setLenient b) ∧ t.lenient = b) ∨
    s.pendingAction = some .reset
  out     : s.pendingAction ≠ some .reset → ∃ evs : List Event, evs.length ≤ 2 ∧ t.out = s.out ++ evs

theorem Quiet.controlled (h : Quiet s t) : Controlled s t :=
  ⟨h.params, fun _ => ⟨h.len, h.readByte?⟩, fun hp => absurd h.policy hp, fun hl => absurd h.lenient hl, fun _ => h.out⟩

theorem step_controlled (s : State) : Answers (Controlled s) (step s) := by
  refine step_elim (fun _ => (runElement_quiet s).mono fun _ => Quiet.controlled)
    (fun _ => (runElement_quiet s.popHost).mono fun t h => Quiet.controlled { h with }) fun a ha _ => ?_
  have same : ∃ evs : List Event, evs.length ≤ 2 ∧ s.out = s.out ++ evs := ⟨[], by simp⟩
  refine hostMove_elim (fun h => .next ?reset) (fun h hi => .next ?start)
    (fun _ _ _ => .next (Quiet.controlled { out := ⟨[.endOfStream], by simp⟩ }))
    (fun _ _ _ => .next (Quiet.controlled { out := same })) (fun b h => .next ?lenient)
    (fun bytes h _ => .next ?input) (fun _ _ _ => .refused _) (fun _ => .next (Quiet.controlled { out := same }))
    <;> subst h
  case reset => exact ⟨rfl, fun _ => ⟨rfl, fun _ => rfl⟩, fun _ => .inr ha, fun _ => .inr ha, fun h => absurd ha h⟩
  case start => exact ⟨rfl, fun _ => ⟨rfl, fun _ => rfl⟩, fun _ => .inl ⟨ha, hi, rfl⟩, fun h => absurd rfl h,
    fun _ => same⟩
  case lenient => exact ⟨rfl, fun _ => ⟨rfl, fun _ => rfl⟩, fun h => absurd rfl h, fun _ => .inl ⟨b, ha, rfl⟩,
    fun _ => same⟩
  case input => exact ⟨rfl, fun h => absurd ha (h bytes), fun h => absurd rfl h, fun h => absurd rfl h, fun _ => same⟩

/-- Settles O54: the steps that are not quiet are `RESET`, an accepted `START`, and the host's two settings. -/
theorem inputPolicyAndOutput : Obligations.InputPolicyAndOutput := fun s t h =>
  let ⟨params, input, policy, lenient, out⟩ := step_controlled s t h
  ⟨params, input, policy, lenient, out⟩

/-! ## The terminal phases -/

/-- In a terminal phase no element is under way. -/
theorem State.PlaceAgrees.rest_of_terminal (h : s.PlaceAgrees) (hp : s.phase = .done ∨ s.phase = .err) :
    s.elem = .rest := by
  by_contra he
  obtain ⟨_, hdone, herr⟩ := h.not_over he
  exact hp.elim hdone herr

/-- Settles O55: at rest the framer does nothing, and of the host's moves only `RESET` is taken in these phases. -/
theorem terminalPhasesStay : Obligations.TerminalPhasesStay := by
  intro s t hplace hp hstep
  have hr := hplace.rest_of_terminal hp
  have hidle : s.phase ≠ .idle := by rcases hp with hp | hp <;> simp [hp]
  have hframe : s.phase ≠ .frame := by rcases hp with hp | hp <;> simp [hp]
  have stays (u : State) (hu : u.elem = .rest) : runElement u = .next u := by rw [runElement, fetch_rest hu]
  revert t
  refine step_elim (P := Answers fun t => _) (fun h => ?own) (fun h => ?wait) fun a ha hw => ?host
  case own => rw [stays s hr]; exact .next ⟨fun _ => rfl, fun hc => nomatch h.symm.trans hc⟩
  case wait => rw [stays s.popHost hr]; exact .next ⟨fun _ => rfl, fun hc => nomatch h.symm.trans hc⟩
  case host =>
    exact hostMove_elim (fun h => .next ⟨fun hc => absurd (h ▸ ha) hc, fun _ => rfl⟩) (fun _ hi => absurd hi hidle)
      (fun _ hf _ => absurd hf hframe) (fun _ hf _ => absurd hf hframe)
      (fun b h => .next ⟨fun _ => rfl, fun hc => by subst h; exact nomatch ha.symm.trans hc⟩)
      (fun _ _ hi => absurd hi hidle) (fun _ _ _ => .refused _)
      (fun h => .next ⟨fun _ => rfl, fun hc => by
        rcases h with rfl | ⟨rfl, _⟩ | ⟨rfl, _⟩ <;> exact nomatch ha.symm.trans hc⟩)

/-! ## Failures and frames, instruction by instruction -/

/-- Settles O57: an element that does not fail leaves `P_ERR` to those that do. -/
theorem failuresOfEachElement : Obligations.FailuresOfEachElement := by
  intro i s t hrange hne hexec herr
  cases exec_ran i s t hexec with
  | @failed u f off wrote listed =>
    refine ⟨f, listed hrange.sampleSize.1, off, rfl, rfl, rfl, ?_, wrote.siValid, fun a => ?_⟩
    · rw [State.raise_out, wrote.out]
    · exact (Ran.failed wrote listed).readByte? a
  | went went =>
    have hphase := went.phase
    rw [herr] at hphase
    split at hphase
    · cases hphase
    · split at hphase
      · cases hphase
      · exact absurd hphase.symm hne

/-- Only the two block bodies and the CRC-16 bring the framer to rest. -/
theorem Went.elem_of_rest (h : Went e s t) (hr : t.elem = .rest) : Elem.isMeta e = true ∨ e = .crc16 := by
  have hnext := h.next
  rw [hr] at hnext
  cases e <;> simp [Elem.successors, Elem.isMeta] at hnext ⊢

theorem Went.chain (h : Went e s t) (hm : Elem.isMeta e = false) :
    t.mb = s.mb ∧ t.first = s.first ∧ t.seenSi = s.seenSi ∧ t.si = s.si ∧ t.siValid = s.siValid := by
  have hmbh : e ≠ .mbh := by rintro rfl; cases hm
  have hbody : e ≠ .siBody := by rintro rfl; cases hm
  obtain ⟨hsi, hseen⟩ := h.si_of_ne_siBody hbody
  exact ⟨(congrArg State.mb h.kept).trans (if_neg hmbh), (congrArg State.first h.kept).trans (if_neg hmbh), hseen, hsi,
    (h.noEnd (by simp [hm])).1⟩

theorem Went.fh (h : Went e s t) (he : Elem.isHeader e = false) : t.fh = s.fh :=
  (congrArg State.fh h.kept).trans (if_neg (by simp [he]))

theorem Went.sf (h : Went e s t) (he : Elem.inSubframe e = false) : t.sf = s.sf :=
  (congrArg State.sf h.kept).trans (if_neg (by simp [he]))

theorem Went.fr (h : Went e s t) (he : e ≠ .crc16) : t.fr = s.fr := (congrArg State.fr h.kept).trans (if_neg he)

theorem Went.ch (h : Went e s t) (h8 : e ≠ .crc8) (he : Elem.inSubframe e = false) : t.ch = s.ch :=
  (congrArg State.ch h.kept).trans (if_neg (by simp [h8, he]))

theorem Went.phase_eq (h : Went e s t) (hm : Elem.isMeta e = false) (h16 : e ≠ .crc16) : t.phase = s.phase := by
  have hsig : e ≠ .sig := by rintro rfl; cases hm
  have hrest : t.elem ≠ .rest := fun hr => (h.elem_of_rest hr).elim (by simp [hm]) h16
  rw [h.phase, if_neg hsig, if_neg hrest]

/-- Settles O58: the frame of an element that goes on, register by register. -/
theorem elementsWriteTheirOwnRegisters : Obligations.ElementsWriteTheirOwnRegisters := by
  intro i s t hexec herr
  have ran := exec_ran i s t hexec
  cases ran with
  | failed _ _ => exact absurd rfl herr
  | went went =>
    have ran := Ran.went went
    exact ⟨⟨ran.lenient, ran.policy, went.err, (congrArg State.errOff went.kept :), ran.host, ran.len, ran.params,
      ran.readByte?⟩, went.chain, went.fh, went.sf, went.others, went.fr, went.ch, went.phase_eq⟩

end Sys2Proof.Machine
end

section
/-!
The registers stay in their ranges (10 R29 to R34), and with them in range every step answers a state.
-/

namespace Sys2Proof.Machine

variable {s t u : State} {e : Elem}

/-! ## The values that are stored -/

theorem toNat_siChannelCount (v : BitVec 3) : (siChannelCount v).toNat = v.toNat + 1 := by
  unfold siChannelCount; bv_omega

theorem toNat_siBitsPerSample (v : BitVec 5) : (siBitsPerSample v).toNat = v.toNat + 1 := by
  unfold siBitsPerSample; bv_omega

theorem toNat_blockSizeOf16 (v : BitVec 16) : (blockSizeOf16 v).toNat = v.toNat + 1 := by
  unfold blockSizeOf16; bv_omega

theorem toNat_seenNext_le : ∀ n : BitVec 2, (seenNext n).toNat ≤ 2 := by decide

theorem side_le_one (cls : ChannelClass) (c : Nat) : side cls c ≤ 1 := by
  unfold side
  cases cls with
  | independent | reserved => exact Nat.zero_le 1
  | leftSide | sideRight | midSide => dsimp only; split <;> decide

/-- The width of a sample is at most 33 (46 R245). -/
theorem sampleWidth_le {size : BitVec 6} (h : size.toNat ≤ 32) (cls : ChannelClass) (c k : Nat) :
    sampleWidth (channelWidth size cls c) k ≤ 33 := by
  have := side_le_one cls c
  unfold sampleWidth channelWidth
  omega

/-- The width register holds a width. -/
theorem toNat_ofInt_width {w : Int} (h1 : 1 ≤ w) (h33 : w ≤ 33) : ((BitVec.ofInt 6 w).toNat : Int) = w := by
  rw [BitVec.toNat_ofInt]; omega

/-- `CH` counts up without a wrap inside the register file. -/
theorem toNat_ch_add_one {c : BitVec 4} (h : c.toNat < 8) : (c + 1).toNat = c.toNat + 1 := by bv_omega

theorem mem_setIfInBounds {α : Type} {n : Nat} {v : Vector α n} {i : Nat} {a x : α}
    (h : x ∈ (v.setIfInBounds i a).toList) : x = a ∨ x ∈ v.toList := by
  rw [Vector.toList_setIfInBounds] at h
  exact (List.mem_or_eq_of_mem_set h).symm

/-! ## The ranges -/

theorem State.InRange.raise {f : Failure} {off : Nat} (h : u.InRange) : (u.raise f off).InRange :=
  { h with chInFrame := (nomatch ·), indexUnderWay := (nomatch ·) }

theorem State.InRange.fail {f : Failure} {off : Nat} (h : u.InRange) : Answers State.InRange (fail u f off) :=
  .next h.raise

/-- The ranges do not speak of the cursor. -/
theorem State.InRange.withCur (h : s.InRange) (n : Nat) : ({ s with cur := n } : State).InRange := { h with }

theorem endOfBlock_inRange (h : s.InRange) : Answers State.InRange (endOfBlock s) :=
  endOfBlock_elim (fun _ => .next { h with chInFrame := (nomatch ·), indexUnderWay := (nomatch ·) })
    (fun _ _ => h.fail) (fun _ _ => .next { h with chInFrame := (nomatch ·), indexUnderWay := (nomatch ·) })

theorem execSiBody_inRange (h : s.InRange) (a b : BitVec 16) (c d : BitVec 24) (r : BitVec 20) (f : BitVec 3)
    (g : BitVec 5) (i : BitVec 36) (j : BitVec 128) : Answers State.InRange (execSiBody a b c d r f g i j s) := by
  have channels : Within 1 (siChannelCount f).toNat 8 := by rw [toNat_siChannelCount]; omega
  have bits : Within 1 (siBitsPerSample g).toNat 32 := by rw [toNat_siBitsPerSample]; omega
  refine execSiBody_elim (fun n si f off _ _ hc hb _ => State.InRange.fail { h with
    siChannels := ?_, siBits := ?_ }) fun _ _ => endOfBlock_inRange { h with
      seenSi := toNat_seenNext_le _, siChannels := channels, siBits := bits }
  · rcases hc with hc | hc <;> simp only [State.setSi_si, hc]
    exacts [h.siChannels, channels]
  · rcases hb with hb | hb <;> simp only [State.setSi_si, hb]
    exacts [h.siBits, bits]

theorem nextChannel_inRange (h : s.InRange) (hch : s.ch.toNat < 8) : Answers State.InRange (nextChannel s) := by
  have hle : (s.ch + 1).toNat ≤ 8 := by rw [toNat_ch_add_one hch]; omega
  exact nextChannel_elim
    (fun hmore => .next { h with ch := hle, chInFrame := fun _ => hmore, indexUnderWay := (nomatch ·) })
    (fun _ => .next { h with ch := hle, chInFrame := (nomatch ·), indexUnderWay := (nomatch ·) })

/-- Writing an entry of the register file with a width in its range. -/
theorem State.InRange.setSubframe (h : s.InRange) {f : Subframe} (hf : Within 1 f.width.toNat 33) :
    (s.setSubframe f).InRange :=
  { h with width := fun g hg => (mem_setIfInBounds hg).elim (fun hgf => hgf ▸ hf) (h.width g) }

theorem mem_sf_of_get {f : Subframe} {c : Nat} (h : s.sf[c]? = some f) : f ∈ s.sf.toList :=
  Vector.mem_toList_iff.2 (Vector.mem_of_getElem? h)

theorem beginSamples_inRange (h : s.InRange) (he : Elem.inSubframe s.elem = true) (off : Nat) :
    Answers State.InRange (beginSamples off s) := by
  have width (f : Subframe) (k : Nat) (w : Int) (hw : w = sampleWidth
      (channelWidth s.fh.sampleSize (caTable s.params s.fh.channelAssignmentCode) s.ch.toNat) k) (h1 : 1 ≤ w) :
      Within 1 (BitVec.ofInt 6 w).toNat 33 := by
    have h33 : w ≤ 33 := hw ▸ sampleWidth_le h.sampleSize.2 _ _ _
    have := toNat_ofInt_width h1 h33
    omega
  refine beginSamples_elim (fun _ => .fault _) (fun _ _ _ => h.fail) (fun f _ _ w hw h1 _ => .next ?_)
    (fun f _ hlt w hw h1 _ => nextChannel_inRange (h.setSubframe (width f _ w hw h1)) hlt)
  exact { h.setSubframe (width f _ w hw h1) with chInFrame := fun _ => h.chInFrame he, indexUnderWay := (nomatch ·) }

theorem subframeHeader_inRange (h : s.InRange) (he : s.elem = .sfh) (z w : Bool) (b : BitVec 6) :
    Answers State.InRange (subframeHeader z b w s) := by
  have hin : Elem.inSubframe s.elem = true := by rw [he]; rfl
  have hw (f : Subframe) (hf : s.sf[s.ch.toNat]? = some f) : Within 1 f.width.toNat 33 := h.width f (mem_sf_of_get hf)
  have typed (f : Subframe) (hf : s.sf[s.ch.toNat]? = some f) {x : Failure} {off : Nat} :
      Answers State.InRange (fail { s.setSubframe { f with subframeType := classify b } with cur := s.cur + 7 } x off) :=
    State.InRange.fail { h.setSubframe (f := { f with subframeType := classify b }) (hw f hf) with }
  refine subframeHeader_elim (fun _ => .fault _) (fun n f _ _ _ => State.InRange.fail { h with })
    (fun f _ hf => typed f hf) (fun f _ _ _ => State.InRange.fail { h with }) (fun f _ _ _ hf => typed f hf)
    (fun f _ _ _ _ hf => typed f hf) (fun f _ _ _ _ hf => .next ?_) (fun f _ _ _ _ hf => ?_)
  · exact { h.setSubframe (f := { f with subframeType := .verbatim, wastedBitsPresent := true }) (hw f hf) with
      chInFrame := fun _ => h.chInFrame hin, indexUnderWay := (nomatch ·) }
  · exact beginSamples_inRange ((h.setSubframe
      (f := { f with subframeType := .verbatim, wastedBitsPresent := false, wastedBitCount := 0 }) (hw f hf)).withCur _)
      hin _

theorem execWasted_inRange (h : s.InRange) (he : s.elem = .wasted) (k : Nat) :
    Answers State.InRange (execWasted k s) := by
  have hin : Elem.inSubframe s.elem = true := by rw [he]; rfl
  exact execWasted_elim (fun _ => .fault _) (fun _ _ _ => h.fail)
    (fun f hf _ => beginSamples_inRange
      ((h.setSubframe (f := { f with wastedBitCount := k }) (h.width f (mem_sf_of_get hf))).withCur _) hin _)

theorem execSample_inRange (h : s.InRange) (he : s.elem = .sample) (w : Nat) (v : BitVec 36) :
    Answers State.InRange (execSample w v s) := by
  have hin : Elem.inSubframe s.elem = true := by rw [he]; rfl
  have stored (f : Subframe) (hf : s.sf[s.ch.toNat]? = some f) :
      ({ s.setSubframe { f with samples := f.samples ++ [sext w v.toNat] } with cur := s.cur + w } : State).InRange :=
    { h.setSubframe (f := { f with samples := f.samples ++ [sext w v.toNat] }) (h.width f (mem_sf_of_get hf)) with }
  exact execSample_elim (fun _ => .fault _) (fun _ => .refused _) (fun _ _ _ => h.fail)
    (fun f hf _ _ _ _ => .next { stored f hf with
      chInFrame := fun _ => h.chInFrame hin, indexUnderWay := (nomatch ·) })
    (fun f hf hlt _ _ _ => nextChannel_inRange (stored f hf) hlt)

theorem beginChannels_inRange (h : s.InRange) : Answers State.InRange (beginChannels s) :=
  beginChannels_elim
    (fun hpos => .next { h with ch := Nat.zero_le _, chInFrame := fun _ => hpos, indexUnderWay := (nomatch ·) })
    (fun _ => .next { h with ch := Nat.zero_le _, chInFrame := (nomatch ·), indexUnderWay := (nomatch ·) })

theorem execCrc8_inRange (h : s.InRange) (v : BitVec 8) : Answers State.InRange (execCrc8 v s) :=
  execCrc8_elim (fun _ => h.fail) (fun _ _ => beginChannels_inRange { h with })
    (fun _ _ _ => State.InRange.fail { h with }) (fun _ _ _ => beginChannels_inRange { h with })

theorem execCrc16_inRange (h : s.InRange) (v : BitVec 16) : Answers State.InRange (execCrc16 v s) :=
  execCrc16_elim (fun _ => h.fail)
    (fun _ _ => .next { h with chInFrame := (nomatch ·), indexUnderWay := (nomatch ·) })
    (fun _ _ _ => State.InRange.fail { h with })
    (fun _ _ _ => .next { h with chInFrame := (nomatch ·), indexUnderWay := (nomatch ·) })

/-- An element outside the subframes and the index, which has no counter of its own. -/
structure Elem.Plain (x : Elem) : Prop where
  noSubframe : Elem.inSubframe x = false := by rfl
  noIndex    : x ≠ .idxCont := by exact (nomatch ·)

/-- Going on to such an element, with header registers written. -/
theorem State.InRange.goHeader {x : Elem} {fh : FrameHeader} (h : s.InRange) (hx : Elem.Plain x) (n : Nat)
    (hblock : Within 1 fh.blockSize.toNat 65536 := by exact State.InRange.blockSize ‹_›)
    (hchannels : Within 1 fh.channelCount.toNat 8 := by exact State.InRange.channels ‹_›)
    (hsize : Within 1 fh.sampleSize.toNat 32 := by exact State.InRange.sampleSize ‹_›)
    (hindex : 1 ≤ fh.indexBytes.toNat := by exact State.InRange.indexBytes ‹_›) :
    ({ s with cur := n, fh := fh, elem := x } : State).InRange :=
  { h with
    blockSize := hblock, channels := hchannels, sampleSize := hsize, indexBytes := hindex
    chInFrame := fun hs => Bool.noConfusion (hx.noSubframe.symm.trans hs)
    indexUnderWay := fun hc => absurd hc hx.noIndex }

theorem State.InRange.goto {x : Elem} (h : s.InRange) (hx : Elem.Plain x) : ({ s with elem := x } : State).InRange :=
  h.goHeader hx s.cur

theorem execFhWord_inRange (h : s.InRange) (sync : BitVec 14) (z1 b : Bool) (bsc src cac : BitVec 4) (ssc : BitVec 3)
    (z2 : Bool) : Answers State.InRange (execFhWord sync z1 b bsc src cac ssc z2 s) := by
  refine execFhWord_elim (fun _ _ _ _ _ _ _ _ _ _ _ _ => State.InRange.fail { h with })
    (fun _ _ _ _ _ _ _ x _ _ _ hx => .next (h.goHeader ?_ _)) (fun _ _ _ _ _ _ _ _ => .next (h.goHeader {} _))
  rcases hx with ⟨rfl, _⟩ | ⟨rfl, _⟩ | ⟨rfl, _⟩ | ⟨rfl, _⟩
  all_goals exact {}

/-! A row of a code writes one header register, whose value the table gives (`ParamsLegal`). -/

theorem blockSizeRow_inRange (h : s.InRange) (c : BitVec 4) : Answers State.InRange (blockSizeRow c s) :=
  blockSizeRow_elim (fun _ => h.fail)
    (fun v hv => .next (h.goHeader {} _ (hblock := h.params.bs c v hv)))
    (fun _ => .next (h.goto {})) (fun _ => .next (h.goto {}))

theorem sampleRateRow_inRange (h : s.InRange) (c : BitVec 4) : Answers State.InRange (sampleRateRow c s) := by
  refine sampleRateRow_elim (fun _ => h.fail) (fun v _ => .next (h.goHeader {} _)) (fun x _ hx => .next (h.goto ?_))
  rcases hx with rfl | rfl | rfl
  all_goals exact {}

theorem channelRow_inRange (h : s.InRange) (c : BitVec 4) : Answers State.InRange (channelRow c s) :=
  channelRow_elim (fun _ => h.fail) (fun v hv => .next (h.goHeader {} _ (hchannels := h.params.ca c v hv)))
    (fun _ => .next (h.goHeader {} _ (hchannels := (by decide : Within 1 (2#4).toNat 8))))

theorem sampleSizeRow_inRange (h : s.InRange) (c : BitVec 3) : Answers State.InRange (sampleSizeRow c s) :=
  sampleSizeRow_elim (fun _ => h.fail) (fun _ => .next (h.goHeader {} _ (hsize := h.siBits)))
    (fun v hv => .next (h.goHeader {} _ (hsize := h.params.ss c v hv)))

theorem State.InRange.advance (h : s.InRange) (n : Nat) : (s.advance n).InRange := h.withCur _

theorem execXbs8_inRange (h : s.InRange) (v : BitVec 8) : Answers State.InRange (execXbs8 v s) := by
  have read : (s.advance 8).InRange := h.advance _
  have size : Within 1 (blockSizeOf8 v).toNat 65536 := by rw [toNat_blockSizeOf8]; omega
  exact readBits_elim (by decide) (by decide) (fun _ => h.fail) fun _ => .next (read.goHeader {} _ (hblock := size))

theorem execXbs16_inRange (h : s.InRange) (v : BitVec 16) : Answers State.InRange (execXbs16 v s) := by
  have read : (s.advance 16).InRange := h.advance _
  have size : Within 1 (blockSizeOf16 v).toNat 65536 := by rw [toNat_blockSizeOf16]; omega
  exact readBits_elim (by decide) (by decide) (fun _ => h.fail) fun _ => .next (read.goHeader {} _ (hblock := size))

theorem execXsr8k_inRange (h : s.InRange) (v : BitVec 8) : Answers State.InRange (execXsr8k v s) := by
  have read : (s.advance 8).InRange := h.advance _
  exact readBits_elim (by decide) (by decide) (fun _ => h.fail) fun _ => .next (read.goHeader {} _)

theorem execXsr16_inRange (h : s.InRange) (v : BitVec 16) : Answers State.InRange (execXsr16 v s) := by
  have read : (s.advance 16).InRange := h.advance _
  exact readBits_elim (by decide) (by decide) (fun _ => h.fail) fun _ => .next (read.goHeader {} _)

theorem execXsr16t_inRange (h : s.InRange) (v : BitVec 16) : Answers State.InRange (execXsr16t v s) := by
  have read : (s.advance 16).InRange := h.advance _
  exact readBits_elim (by decide) (by decide) (fun _ => h.fail) fun _ => .next (read.goHeader {} _)

theorem indexFirst_inRange (h : s.InRange) {m : BitVec 3} (hm : 2 ≤ m.toNat) (v : BitVec 36) :
    Answers State.InRange (indexFirst m v s) :=
  indexFirst_elim (fun _ => h.fail) (fun _ => .next { h with
    chInFrame := (nomatch ·), indexUnderWay := fun _ => ⟨by dsimp only; omega, by dsimp only; omega⟩ })

theorem execIdxCont_inRange (h : s.InRange) (he : s.elem = .idxCont) (b : BitVec 2) (d : BitVec 6) :
    Answers State.InRange (execIdxCont b d s) := by
  obtain ⟨hleft, hlen⟩ := h.indexUnderWay he
  exact execIdxCont_elim (fun _ => h.fail) (fun _ _ => (h.withCur _).fail)
    (fun _ _ _ => .next { h with
      indexBytes := Nat.one_le_of_lt hlen, chInFrame := (nomatch ·), indexUnderWay := (nomatch ·) })
    (fun _ _ hmore => .next { h with
      chInFrame := (nomatch ·)
      indexUnderWay := fun _ => ⟨Nat.one_le_iff_ne_zero.2 hmore, (Nat.sub_le _ _).trans_lt hlen⟩ })

theorem blockHeader_inRange (h : s.InRange) (l : Bool) (b : BitVec 7) (n : BitVec 24) :
    Answers State.InRange (blockHeader l b n s) :=
  blockHeader_elim (fun _ _ _ _ _ _ _ _ => State.InRange.fail { h with })
    (fun _ _ _ => .next { h with chInFrame := (nomatch ·), indexUnderWay := (nomatch ·) })
    (fun _ _ _ => .next { h with chInFrame := (nomatch ·), indexUnderWay := (nomatch ·) })

theorem execSig_inRange (h : s.InRange) (w : BitVec 32) : Answers State.InRange (execSig w s) := by
  unfold execSig
  refine readBits_elim (by decide) (by decide) (fun _ => h.fail) fun _ => ?_
  split
  · exact (h.withCur _).fail
  · exact .next { h with chInFrame := (nomatch ·), indexUnderWay := (nomatch ·) }

/-- An element's step keeps the ranges: each value it stores fits its register. -/
theorem runElement_inRange (h : s.InRange) (he : s.elem ≠ .rest) : Answers State.InRange (runElement s) :=
  runElement_elim (fun hr => absurd hr he) (fun _ w => execSig_inRange h w)
    (fun _ l b n => blockHeader_inRange h l b n) (fun _ a b c d r f g i j => execSiBody_inRange h a b c d r f g i j)
    (fun _ => skipBytes_elim (fun _ => h.fail) fun _ => endOfBlock_inRange (h.withCur _))
    (fun _ sync z1 b bsc src cac ssc z2 => execFhWord_inRange h sync z1 b bsc src cac ssc z2)
    (fun _ => blockSizeRow_inRange h _) (fun _ => sampleRateRow_inRange h _) (fun _ => channelRow_inRange h _)
    (fun _ => sampleSizeRow_inRange h _)
    (fun _ v => execIdx1_elim (fun _ => h.fail) fun _ =>
      .next (h.goHeader {} _ (hindex := (by decide : 1 ≤ (1#3).toNat))))
    (fun _ m v hm => indexFirst_inRange h hm v) (fun _ => indexBad_elim (fun _ => h.fail) fun _ => (h.withCur _).fail)
    (fun hc b d => execIdxCont_inRange h hc b d) (fun _ v => execXbs8_inRange h v) (fun _ v => execXbs16_inRange h v)
    (fun _ v => execXsr8k_inRange h v) (fun _ v => execXsr16_inRange h v) (fun _ v => execXsr16t_inRange h v)
    (fun _ v => execCrc8_inRange h v)
    (fun hs z b w => subframeHeader_inRange h hs z w b) (fun hw k _ => execWasted_inRange h hw k)
    (fun hs v => execSample_inRange h hs _ v) (fun _ bs => .next ((h.withCur _).goto {}))
    (fun _ v => execCrc16_inRange h v)

theorem reset_inRange : State.reset.InRange where
  seenSi := by decide
  siChannels := by decide
  siBits := by decide
  blockSize := by decide
  channels := by decide
  sampleSize := by decide
  indexBytes := by decide
  ch := by decide
  width := by decide
  chInFrame := (nomatch ·)
  indexUnderWay := (nomatch ·)
  params := defaultParams_legal

theorem step_inRange : ∀ s t : State, s.InRange → step s = .next t → t.InRange :=
  step_establishes (fun s h => { h with }) (fun s h => h) (fun s h he => runElement_inRange h he)
    (fun s h => { reset_inRange with params := h.params })
    (fun s h _ _ => { h with chInFrame := (nomatch ·), indexUnderWay := (nomatch ·) })
    (fun s h _ _ _ => { h with }) (fun s h _ _ => h.goto {}) (fun s b h => { h with }) (fun s bytes h _ => { h with })

end Sys2Proof.Machine
end

section
/-!
The subframe registers and the subframes of emitted frames stay in their ranges (10 R34), and so does the code of
`ERR` (10 R25).
-/

namespace Sys2Proof.Machine

variable {s t u : State} {e x : Elem} {f g : Subframe}

/-! ## Samples are two's complement -/

/-- The value of a sample is that of its low bits read as two's complement. -/
theorem sext_eq_toInt (n v : Nat) : sext n v = (BitVec.ofNat n v).toInt := by
  simp only [sext, BitVec.toInt_eq_toNat_cond, BitVec.toNat_ofNat]

theorem le_sext (n v : Nat) : -(2 ^ (n - 1) : Int) ≤ sext n v := by
  rw [sext_eq_toInt]; exact BitVec.le_toInt _

theorem sext_lt (n v : Nat) : sext n v < 2 ^ (n - 1) := by
  rw [sext_eq_toInt]; exact BitVec.toInt_lt

/-- Settles O36: `sext` is `BitVec.toInt`. -/
theorem sextIsTwosComplement : Obligations.SextIsTwosComplement := by
  refine fun n v _ => ⟨?_, le_sext n _, sext_lt n _⟩
  rw [sext_eq_toInt, BitVec.ofNat_toNat, BitVec.setWidth_eq]

/-! ## What holds of every entry of the register file, and of every emitted frame -/

/-- What 10 R34 says of an entry at any time. -/
structure Subframe.Sound (f : Subframe) : Prop where
  order     : ∀ o, f.subframeType = .lpc o → Within 1 o.toNat 32
  flagClear : f.wastedBitsPresent = false → f.wastedBitCount = 0
  values    : ∀ v ∈ f.samples, -(2 ^ (f.width.toNat - 1) : Int) ≤ v ∧ v < 2 ^ (f.width.toNat - 1)

/-- What 10 R34 says of an entry that has been read to its end. -/
structure Subframe.Read (f : Subframe) (blockSize : Nat) : Prop where
  verbatim : f.subframeType = .verbatim
  agrees   : CountAgrees f.wastedBitsPresent f.wastedBitCount
  full     : f.samples.length = blockSize

/-- The part of `State.SubframesInRange` that speaks of the place of the framer nowhere. -/
structure State.SubframesSound (s : State) : Prop where
  err     : s.err.toNat ≤ 10
  entries : ∀ f ∈ s.sf.toList, f.Sound
  emitted : ∀ fr, Event.frame fr ∈ s.out → ∀ g ∈ fr.subframes,
    g.subframeType = .verbatim ∧ CountAgrees g.wastedBitsPresent g.wastedBitCount ∧
    g.samples.length = fr.header.blockSize.toNat

theorem State.SubframesInRange.sound (h : s.SubframesInRange) : s.SubframesSound where
  err := h.err
  entries f hf := ⟨h.order f hf, h.flagClear f hf, h.values f hf⟩
  emitted := h.emitted

/-- An element of a frame before its subframes, or none. -/
structure Elem.Apart (x : Elem) : Prop where
  noSubframe : Elem.inSubframe x = false := by rfl
  noFooter   : ¬(x = .pad ∨ x = .crc16) := by simp

/-- Apart from the subframes the place asks for nothing more. -/
theorem State.SubframesSound.apart (h : s.SubframesSound) (hx : Elem.Apart s.elem) : s.SubframesInRange where
  err := h.err
  order f hf := (h.entries f hf).order
  flagClear f hf := (h.entries f hf).flagClear
  values f hf := (h.entries f hf).values
  verbatim he := by have := hx.noSubframe; rcases he with he | he <;> rw [he] at this <;> cases this
  flagSet he := by have := hx.noSubframe; rw [he] at this; cases this
  counting he := by have := hx.noSubframe; rw [he] at this; cases this
  read c f hr := by
    rcases hr with ⟨hin, _⟩ | ⟨hf, _⟩
    · rw [hx.noSubframe] at hin; cases hin
    · exact absurd hf hx.noFooter
  emitted := h.emitted

theorem Failure.toNat_code_le (x : Failure) : x.code.toNat ≤ 10 := by cases x <;> decide

theorem State.SubframesSound.raise {x : Failure} {off : Nat} (h : s.SubframesSound)
    (hs : ∀ f ∈ u.sf.toList, f.Sound) (ho : u.out = s.out) : (u.raise x off).SubframesInRange := by
  refine State.SubframesSound.apart ⟨Failure.toNat_code_le x, hs, fun fr hfr => h.emitted fr ?_⟩ {}
  simpa [ho] using hfr

/-! ## The elements outside the subframes -/

theorem Wrote.sf (h : Wrote e s u) (he : Elem.inSubframe e = false) : u.sf = s.sf :=
  (congrArg State.sf h.kept).trans (if_neg (by simp [he]))

/-- An element that leads to no subframe and no footer. -/
theorem apart_of_mem_successors (he : Elem.inSubframe e = false) (h8 : e ≠ .crc8) (hp : e ≠ .pad) :
    ∀ x ∈ Elem.successors e, Elem.inSubframe x = false ∧ ¬(x = .pad ∨ x = .crc16) := by
  cases e <;> simp [Elem.successors, Elem.inSubframe] at *

theorem Ran.subframesInRange_of_apart (h : s.SubframesSound) (he : Elem.inSubframe e = false) (h8 : e ≠ .crc8)
    (hp : e ≠ .pad) (h16 : e ≠ .crc16) (hr : Ran e s t) : t.SubframesInRange := by
  cases hr with
  | failed wrote _ => exact h.raise (by rw [wrote.sf he]; exact h.entries) wrote.out
  | went went =>
    obtain ⟨hin, hfoot⟩ := apart_of_mem_successors he h8 hp t.elem went.next
    refine State.SubframesSound.apart ⟨by rw [went.err]; exact h.err, by rw [went.sf he]; exact h.entries,
      fun fr hfr => h.emitted fr ?_⟩ ⟨hin, hfoot⟩
    by_cases hc : Elem.isMeta e = true ∧ t.elem = .rest
    · simpa [(went.chainEnd hc).2.2] using hfr
    · obtain ⟨_, evs, _, _, hout, hnone⟩ := went.noEnd hc
      simpa [hout, hnone h8 h16] using hfr

/-- The first subframe follows: none has been read. -/
theorem beginChannels_subframesInRange (h : s.SubframesSound) (hr : 1 ≤ s.fh.channelCount.toNat) :
    Answers State.SubframesInRange (beginChannels s) := by
  rw [beginChannels_of_pos hr]
  exact .next {
    err := h.err
    order := fun f hf => (h.entries f hf).order
    flagClear := fun f hf => (h.entries f hf).flagClear
    values := fun f hf => (h.entries f hf).values
    verbatim := by simp
    flagSet := by simp
    counting := by simp
    read := fun c f hr => by simp [State.subframeRead] at hr
    emitted := h.emitted }

theorem execCrc8_subframesInRange (h : s.SubframesSound) (hr : 1 ≤ s.fh.channelCount.toNat) (v : BitVec 8) :
    Answers State.SubframesInRange (execCrc8 v s) := by
  refine execCrc8_elim (fun _ => .next (h.raise h.entries rfl))
    (fun _ _ => beginChannels_subframesInRange ⟨h.err, h.entries, h.emitted⟩ hr)
    (fun _ _ _ => .next (h.raise h.entries rfl))
    (fun _ _ _ => beginChannels_subframesInRange ⟨h.err, h.entries, fun fr hfr => h.emitted fr ?_⟩ hr)
  simpa using hfr

theorem execPad_subframesInRange (h : s.SubframesInRange) (he : s.elem = .pad) (bs : Bits) :
    Answers State.SubframesInRange (execPad bs s) := .next {
  err := h.err
  order := h.order
  flagClear := h.flagClear
  values := h.values
  verbatim := by simp
  flagSet := by simp
  counting := by simp
  read := fun c f hr => h.read c f <| hr.elim (fun hin => nomatch hin.1) fun hf => .inr ⟨.inl he, hf.2⟩
  emitted := h.emitted }

/-- The entries of a frame's record have been read to their end. -/
theorem frameRecord_subframes (h : s.SubframesInRange) (he : s.elem = .crc16) (hu : u.sf = s.sf) (hfh : u.fh = s.fh) :
    ∀ g ∈ u.frameRecord.subframes, g.subframeType = .verbatim ∧
      CountAgrees g.wastedBitsPresent g.wastedBitCount ∧
      g.samples.length = u.frameRecord.header.blockSize.toNat := by
  intro g hg
  obtain ⟨f, hf, rfl⟩ := List.mem_map.1 hg
  obtain ⟨c, hc⟩ := List.mem_iff_getElem?.1 hf
  rw [hu, hfh] at hc
  have hlt : c < s.fh.channelCount.toNat := by
    by_contra hge
    rw [List.getElem?_take_eq_none (by omega)] at hc
    cases hc
  rw [List.getElem?_take_of_lt hlt] at hc
  have hread := h.read c f (.inr ⟨.inr he, hlt⟩) (by simpa using hc)
  simpa [State.frameRecord, FrameHeader.record, Subframe.record, hfh] using hread

theorem emitFrame_subframesInRange (h : s.SubframesInRange) (he : s.elem = .crc16) (hsf : u.sf = s.sf)
    (hfh : u.fh = s.fh) (herr : u.err = s.err) (hout : ∀ fr, Event.frame fr ∈ u.out → Event.frame fr ∈ s.out) :
    Answers State.SubframesInRange (emitFrame u) := by
  refine .next (State.SubframesSound.apart ⟨by rw [herr]; exact h.err, by rw [hsf]; exact h.sound.entries,
    fun fr hfr => ?_⟩ {})
  rcases List.mem_append.1 hfr with hfr | hfr
  · exact h.emitted fr (hout fr hfr)
  · obtain rfl : fr = u.frameRecord := by simpa using hfr
    exact frameRecord_subframes h he hsf hfh

theorem execCrc16_subframesInRange (h : s.SubframesInRange) (he : s.elem = .crc16) (v : BitVec 16) :
    Answers State.SubframesInRange (execCrc16 v s) :=
  execCrc16_elim (fun _ => .next (h.sound.raise h.sound.entries rfl))
    (fun _ _ => emitFrame_subframesInRange h he rfl rfl rfl fun _ hfr => hfr)
    (fun _ _ _ => .next (h.sound.raise h.sound.entries rfl))
    (fun _ _ _ => emitFrame_subframesInRange h he rfl rfl rfl fun _ hfr => by simpa using hfr)

/-! ## The subframe elements -/

theorem WroteSubframe.err (h : WroteSubframe s u f) : u.err = s.err := (congrArg State.err h.same :)

theorem WroteSubframe.out (h : WroteSubframe s u f) : u.out = s.out := (congrArg State.out h.same :)

theorem WroteSubframe.sound (h : WroteSubframe s u f) (hf : f.Sound) (hs : s.SubframesSound) : u.SubframesSound where
  err := by rw [h.err]; exact hs.err
  entries g hg := by
    rw [h.entry] at hg
    exact (mem_setIfInBounds hg).elim (fun hgf => hgf ▸ hf) (hs.entries g)
  emitted := by rw [h.out]; exact hs.emitted

/-- The current entry, and the others. -/
theorem WroteSubframe.get_ne {c : Nat} (h : WroteSubframe s u f) (hc : c ≠ s.ch.toNat) : u.sf[c]? = s.sf[c]? := by
  rw [h.entry, Vector.getElem?_setIfInBounds_ne hc.symm]

theorem WroteSubframe.fail {x : Failure} {off : Nat} (h : WroteSubframe s u f) (hf : f.Sound)
    (hs : s.SubframesInRange) : Answers State.SubframesInRange (fail u x off) :=
  have := h.sound hf hs.sound
  .next (this.raise this.entries rfl)

/-- Inside a frame: the entries before `CH` have been read to their end. -/
theorem State.SubframesInRange.read_before {c : Nat} (h : s.SubframesInRange) (he : Elem.inSubframe s.elem = true)
    (hc : c < s.ch.toNat) (hg : s.sf[c]? = some g) : g.Read s.fh.blockSize.toNat :=
  have ⟨verbatim, agrees, full⟩ := h.read c g (.inl ⟨he, hc⟩) hg
  ⟨verbatim, agrees, full⟩

/-- The subframe goes on: its entry is Verbatim and as far as the place says. -/
theorem WroteSubframe.stay (h : WroteSubframe s u f) (hs : s.SubframesInRange) (he : Elem.inSubframe s.elem = true)
    (hf : f.Sound) (hx : Elem.inSubframe x = true) (hverbatim : f.subframeType = .verbatim)
    (hflag : x = .wasted → f.wastedBitsPresent = true)
    (hcount : x = .sample → CountAgrees f.wastedBitsPresent f.wastedBitCount ∧
      f.samples.length < s.fh.blockSize.toNat) : ({ u with elem := x } : State).SubframesInRange := by
  have sound := h.sound hf hs.sound
  exact {
    err := sound.err
    order := fun f hf => (sound.entries f hf).order
    flagClear := fun f hf => (sound.entries f hf).flagClear
    values := fun f hf => (sound.entries f hf).values
    verbatim := fun _ g hg => by rw [h.get hg]; exact hverbatim
    flagSet := fun hw g hg => by rw [h.get hg]; exact hflag hw
    counting := fun hw g hg => by
      rw [h.get hg, show State.fh { u with elem := x } = s.fh from h.fh]; exact hcount hw
    read := fun c g hr hg => by
      obtain ⟨_, hc⟩ : Elem.inSubframe x = true ∧ c < u.ch.toNat := hr.elim id fun hfoot => by
        rcases hfoot.1 with rfl | rfl <;> cases hx
      rw [h.ch] at hc
      have ⟨verbatim, agrees, full⟩ := hs.read_before he hc ((h.get_ne hc.ne).symm.trans hg)
      exact ⟨verbatim, agrees, by rw [full, show State.fh { u with elem := x } = s.fh from h.fh]⟩
    emitted := sound.emitted }

/-- The subframe ends: all entries up to it have been read to their end. -/
theorem nextChannel_subframesInRange (h : WroteSubframe s u f) (hs : s.SubframesInRange)
    (he : Elem.inSubframe s.elem = true) (hf : f.Sound) (hlt : s.ch.toNat < 8)
    (hread : f.Read s.fh.blockSize.toNat) : Answers State.SubframesInRange (nextChannel u) := by
  have sound := h.sound hf hs.sound
  have read (c : Nat) (g : Subframe) (hc : c < s.ch.toNat + 1) (hg : u.sf[c]? = some g) :
      g.Read s.fh.blockSize.toNat := by
    rcases Nat.lt_succ_iff_lt_or_eq.1 hc with hc | rfl
    · exact hs.read_before he hc ((h.get_ne hc.ne).symm.trans hg)
    · rw [h.get (g := g) (by rw [h.ch]; exact hg)]; exact hread
  have hch : (u.ch + 1).toNat = s.ch.toNat + 1 := by rw [h.ch, toNat_ch_add_one hlt]
  have go (x : Elem) (hx : x = .sfh ∨ x = .pad ∧ u.fh.channelCount.toNat ≤ (u.ch + 1).toNat) :
      ({ u with ch := u.ch + 1, elem := x } : State).SubframesInRange := by
    exact {
      err := sound.err
      order := fun f hf => (sound.entries f hf).order
      flagClear := fun f hf => (sound.entries f hf).flagClear
      values := fun f hf => (sound.entries f hf).values
      verbatim := by rcases hx with rfl | ⟨rfl, _⟩ <;> simp
      flagSet := by rcases hx with rfl | ⟨rfl, _⟩ <;> simp
      counting := by rcases hx with rfl | ⟨rfl, _⟩ <;> simp
      read := fun c g hr hg => by
        have hc : c < s.ch.toNat + 1 := by
          rcases hr with ⟨_, hc⟩ | ⟨_, hc⟩
          · exact hch ▸ hc
          · rcases hx with rfl | ⟨rfl, hlast⟩
            · simp_all
            · exact hch ▸ hc.trans_le hlast
        obtain ⟨verbatim, agrees, full⟩ := read c g hc hg
        exact ⟨verbatim, agrees, by rw [full, show State.fh { u with ch := _, elem := x } = s.fh from h.fh]⟩
      emitted := sound.emitted }
  exact nextChannel_elim (fun _ => .next (go .sfh (.inl rfl))) fun hlast => .next (go .pad (.inr ⟨rfl, hlast⟩))

/-- The samples begin: where there is a width of 1 or more, the count is at most 32. -/
theorem beginSamples_subframesInRange {off : Nat} (hr : s.InRange) (h : WroteSubframe s u f) (hs : s.SubframesInRange)
    (he : Elem.inSubframe s.elem = true) (hf : f.Sound) (hverbatim : f.subframeType = .verbatim)
    (hflag : f.wastedBitsPresent = true ↔ 1 ≤ f.wastedBitCount) :
    Answers State.SubframesInRange (beginSamples off u) := by
  have hblock : 1 ≤ s.fh.blockSize.toNat := hr.blockSize.1
  refine beginSamples_elim (fun _ => .fault _) (fun _ _ _ => h.fail hf hs) (fun g hg hlt w hw h1 _ => ?_)
    (fun g hg hlt w hw h1 hzero => ?_)
  · obtain rfl := h.get hg
    rw [h.fh] at hw
    have hcount : g.wastedBitCount ≤ 32 := by
      have := sampleWidth_le hr.sampleSize.2 (caTable u.params s.fh.channelAssignmentCode) u.ch.toNat 0
      rw [sampleWidth_zero] at this
      unfold sampleWidth at hw
      omega
    exact .next ((h.setSubframe _).stay hs he ⟨by simp [hverbatim], hf.flagClear, by simp⟩ rfl hverbatim (nomatch ·)
      fun _ => ⟨⟨hcount, hflag⟩, hblock⟩)
  · rw [h.fh] at hzero
    rw [hzero] at hblock
    cases hblock

theorem classify_lpc {b : BitVec 6} {o : BitVec 6} (h : classify b = .lpc o) : Within 1 o.toNat 32 := by
  have table : ∀ b : BitVec 6, (match classify b with
      | .lpc o => decide (Within 1 o.toNat 32)
      | _ => true) = true := by decide
  simpa [h] using table b

theorem State.SubframesInRange.current (h : s.SubframesInRange) (hf : s.sf[s.ch.toNat]? = some f) : f.Sound :=
  h.sound.entries f (mem_sf_of_get hf)

theorem subframeHeader_subframesInRange (hr : s.InRange) (h : s.SubframesInRange) (he : s.elem = .sfh) (z w : Bool)
    (b : BitVec 6) : Answers State.SubframesInRange (subframeHeader z b w s) := by
  have hin : Elem.inSubframe s.elem = true := by rw [he]; rfl
  have wrote (f : Subframe) (n : Nat) (hn : n ≤ s.rem) :
      WroteSubframe s { s.setSubframe f with cur := s.cur + n } f := { cursor := .of_le_rem hn rfl }
  have typed (f : Subframe) (hf : s.sf[s.ch.toNat]? = some f) (hn : 7 ≤ s.rem) {x : Failure} {off : Nat} :
      Answers State.SubframesInRange
        (fail { s.setSubframe { f with subframeType := classify b } with cur := s.cur + 7 } x off) :=
    (wrote _ 7 hn).fail ⟨fun _ => classify_lpc, (h.current hf).flagClear, (h.current hf).values⟩ h
  exact subframeHeader_elim (fun _ => .fault _) (fun _ _ _ _ _ => .next (h.sound.raise h.sound.entries rfl))
    (fun f h7 hf => typed f hf h7.ge) (fun _ _ _ _ => .next (h.sound.raise h.sound.entries rfl))
    (fun f h7 _ _ hf => typed f hf h7) (fun f h7 _ _ _ hf => typed f hf h7)
    (fun f h8 _ _ _ hf => .next ((wrote _ 8 h8).stay h hin ⟨by simp, by simp, (h.current hf).values⟩ rfl rfl
      (fun _ => rfl) (nomatch ·)))
    (fun f h8 _ _ _ hf => beginSamples_subframesInRange hr (wrote _ 8 h8) h hin
      ⟨by simp, fun _ => rfl, (h.current hf).values⟩ rfl (by simp))

theorem execWasted_subframesInRange (hr : s.InRange) (h : s.SubframesInRange) (he : s.elem = .wasted) {k : Nat}
    (hk : 1 ≤ k) : Answers State.SubframesInRange (execWasted k s) := by
  refine execWasted_elim (fun _ => .fault _) (fun _ _ _ => .next (h.sound.raise h.sound.entries rfl)) fun f hf hle => ?_
  have hverbatim := h.verbatim (.inl he) f hf
  have hflag := h.flagSet he f hf
  exact beginSamples_subframesInRange (f := { f with wastedBitCount := k }) hr { cursor := .of_le_rem hle rfl } h
    (by rw [he]; rfl) ⟨by simp [hverbatim], by simp [hflag], (h.current hf).values⟩ hverbatim (by simp [hflag, hk])

theorem execSample_subframesInRange (h : s.SubframesInRange) (he : s.elem = .sample) (v : BitVec 36) :
    Answers State.SubframesInRange (execSample s.elemWidth v s) := by
  have hin : Elem.inSubframe s.elem = true := by rw [he]; rfl
  have wrote (f : Subframe) (hn : s.elemWidth ≤ s.rem) :
      WroteSubframe s { s.setSubframe f with cur := s.cur + s.elemWidth } f := { cursor := .of_le_rem hn rfl }
  have sound (f : Subframe) (hf : s.sf[s.ch.toNat]? = some f) :
      Subframe.Sound { f with samples := f.samples ++ [sext s.elemWidth v.toNat] } := by
    have hwidth : s.elemWidth = f.width.toNat := by simp [State.elemWidth, he, hf]
    have hold := h.current hf
    refine ⟨hold.order, hold.flagClear, fun y hy => ?_⟩
    rcases List.mem_append.1 hy with hy | hy
    · exact hold.values y hy
    · rw [List.mem_singleton.1 hy, hwidth]
      exact ⟨le_sext _ _, sext_lt _ _⟩
  refine execSample_elim (fun _ => .fault _) (fun _ => .refused _)
    (fun _ _ _ => .next (h.sound.raise h.sound.entries rfl)) (fun f hf _ _ hle hmore => ?_)
    (fun f hf hlt _ hle hlast => ?_)
  · exact .next ((wrote _ hle).stay h hin (sound f hf) rfl (h.verbatim (.inr he) f hf) (nomatch ·) fun _ =>
      ⟨(h.counting he f hf).1, by simpa using hmore⟩)
  · have hlen := (h.counting he f hf).2
    exact nextChannel_subframesInRange (wrote _ hle) h hin (sound f hf) hlt
      ⟨h.verbatim (.inr he) f hf, (h.counting he f hf).1, by simp; omega⟩

/-- An element's step keeps the ranges of the subframe registers and of the emitted frames. -/
theorem runElement_subframesInRange (hr : s.InRange) (h : s.SubframesInRange) (he : s.elem ≠ .rest) :
    Answers State.SubframesInRange (runElement s) := by
  by_cases apart : Elem.inSubframe s.elem = false ∧ s.elem ≠ .crc8 ∧ s.elem ≠ .pad ∧ s.elem ≠ .crc16
  · obtain ⟨hin, h8, hp, h16⟩ := apart
    exact .of_ran he fun t ht => ht.subframesInRange_of_apart h.sound hin h8 hp h16
  · have other {Q : Prop} {x : Elem} (hx : s.elem = x)
        (hap : Elem.inSubframe x = false ∧ x ≠ .crc8 ∧ x ≠ .pad ∧ x ≠ .crc16) : Q := absurd (hx ▸ hap) apart
    refine runElement_elim (fun hx => absurd hx he)
      (hcrc8 := fun _ v => execCrc8_subframesInRange h.sound hr.channels.1 v)
      (hsfh := fun hx z b w => subframeHeader_subframesInRange hr h hx z w b)
      (hwasted := fun hx _ hk => execWasted_subframesInRange hr h hx hk)
      (hsample := fun hx v => execSample_subframesInRange h hx v) (hpad := fun hx bs => execPad_subframesInRange h hx bs)
      (hcrc16 := fun hx v => execCrc16_subframesInRange h hx v) ?_ ?_ ?_ ?_ ?_ ?_ ?_ ?_ ?_ ?_ ?_ ?_ ?_ ?_ ?_ ?_ ?_ ?_
    all_goals exact fun hx => other hx (by decide)

/-! ## The moves of the host -/

theorem reset_sound : State.reset.SubframesSound where
  err := by decide
  entries f hf := by
    obtain rfl : f = Subframe.reset := by simpa [State.reset] using hf
    exact ⟨by decide, by simp [Subframe.reset], by simp [Subframe.reset]⟩
  emitted := by simp [State.reset]

theorem reset_subframesInRange : State.reset.SubframesInRange := reset_sound.apart ⟨rfl, by decide⟩

theorem apart_of_atBoundary (hb : s.atBoundary = true) : Elem.Apart s.elem := by
  unfold State.atBoundary at hb
  split at hb
  case h_4 => cases hb
  all_goals rename_i he; rw [he]; exact {}

theorem step_subframesInRange (hr : s.InRange) (h : s.SubframesInRange) (hstep : step s = .next t) :
    t.SubframesInRange := by
  refine step_establishes (J := fun s => s.InRange ∧ s.SubframesInRange) (fun s h => ⟨{ h.1 with }, { h.2 with }⟩)
    (fun s h => h.2) (fun s h he => runElement_subframesInRange h.1 h.2 he) (fun s h => { reset_subframesInRange with })
    (fun s ⟨_, h⟩ _ _ => State.SubframesSound.apart { h.sound with } {}) (fun s ⟨_, h⟩ hb _ _ => ?_)
    (fun s ⟨_, h⟩ _ _ => State.SubframesSound.apart { h.sound with } {}) (fun s b h => { h.2 with })
    (fun s bytes h _ => { h.2 with }) s t ⟨hr, h⟩ hstep
  exact State.SubframesSound.apart ⟨h.err, h.sound.entries, fun fr hfr => h.emitted fr (by simpa using hfr)⟩
    (apart_of_atBoundary (s := s) hb)

/-- Settles O50: each operation of the framer keeps each range, and `step_establishes` adds the host's moves. -/
theorem rangesKept : Obligations.RangesKept := fun s t hr hstep =>
  ⟨step_inRange s t hr hstep, fun h => step_subframesInRange hr h hstep⟩

end Sys2Proof.Machine
end

section
/-!
Every step has an outcome while the registers are in their ranges (00 R12), left to itself the framer comes to rest
(48 R282), and the elements that the formats align start on byte boundaries (20 R55).
-/

namespace Sys2Proof.Machine

variable {s t u : State} {e x : Elem} {f : Subframe}

/-! ## A step has an outcome -/

/-- The answer is a next state. -/
def GoesOn (r : Res) : Prop := ∃ t, r = .next t

theorem GoesOn.next (t : State) : GoesOn (.next t) := ⟨t, rfl⟩

theorem endOfBlock_goesOn : GoesOn (endOfBlock s) :=
  endOfBlock_elim (fun _ => .next _) (fun _ _ => .next _) fun _ _ => .next _

theorem beginChannels_goesOn : GoesOn (beginChannels s) := beginChannels_elim (fun _ => .next _) fun _ => .next _

theorem nextChannel_goesOn : GoesOn (nextChannel s) := nextChannel_elim (fun _ => .next _) fun _ => .next _

theorem beginSamples_goesOn {off : Nat} (h : s.ch.toNat < 8) : GoesOn (beginSamples off s) :=
  beginSamples_elim (fun hge => absurd h hge.not_gt) (fun _ _ _ => .next _) (fun _ _ _ _ _ _ _ => .next _)
    fun _ _ _ _ _ _ _ => nextChannel_goesOn

theorem State.InRange.ch_lt (h : s.InRange) (he : Elem.inSubframe s.elem = true) : s.ch.toNat < 8 :=
  (h.chInFrame he).trans_le h.channels.2

theorem State.InRange.elemWidth (h : s.InRange) (he : s.elem = .sample) : 1 ≤ s.elemWidth ∧ s.elemWidth ≤ 33 := by
  have hlt : s.ch.toNat < 8 := h.ch_lt (by rw [he]; rfl)
  obtain ⟨f, hf⟩ : ∃ f, s.sf[s.ch.toNat]? = some f := ⟨_, Vector.getElem?_eq_getElem hlt⟩
  have hwidth : s.elemWidth = f.width.toNat := by simp [State.elemWidth, he, hf]
  exact hwidth ▸ h.width f (mem_sf_of_get hf)

theorem runElement_goesOn (h : s.InRange) : GoesOn (runElement s) := by
  have fits {Q : Prop} {x : Elem} (he : s.elem = x) (hx : Elem.inSubframe x = true) (hge : 8 ≤ s.ch.toNat) : Q :=
    absurd (h.ch_lt (he ▸ hx)) hge.not_gt
  exact runElement_elim (fun _ => .next _)
    (hsig := fun _ w => readBits_elim (by omega) (by omega) (fun _ => .next _) fun _ => by split <;> exact .next _)
    (hmbh := fun _ _ _ _ => blockHeader_elim (fun _ _ _ _ _ _ _ _ => .next _) (fun _ _ _ => .next _)
      fun _ _ _ => .next _)
    (hsi := fun _ _ _ _ _ _ _ _ _ _ => execSiBody_elim (fun _ _ _ _ _ _ _ _ _ => .next _)
      fun _ _ => endOfBlock_goesOn)
    (hbody := fun _ => skipBytes_elim (fun _ => .next _) fun _ => endOfBlock_goesOn)
    (hword := fun _ _ _ _ _ _ _ _ _ => execFhWord_elim (fun _ _ _ _ _ _ _ _ _ _ _ _ => .next _)
      (fun _ _ _ _ _ _ _ _ _ _ _ _ => .next _) fun _ _ _ _ _ _ _ _ => .next _)
    (hbs := fun _ => blockSizeRow_elim (fun _ => .next _) (fun _ _ => .next _) (fun _ => .next _) fun _ => .next _)
    (hsr := fun _ => sampleRateRow_elim (fun _ => .next _) (fun _ _ => .next _) fun _ _ _ => .next _)
    (hca := fun _ => channelRow_elim (fun _ => .next _) (fun _ _ => .next _) fun _ => .next _)
    (hss := fun _ => sampleSizeRow_elim (fun _ => .next _) (fun _ => .next _) fun _ _ => .next _)
    (hidx1 := fun _ _ => execIdx1_elim (fun _ => .next _) fun _ => .next _)
    (hidxn := fun _ _ _ _ => indexFirst_elim (fun _ => .next _) fun _ => .next _)
    (hidxbad := fun _ => indexBad_elim (fun _ => .next _) fun _ => .next _)
    (hcont := fun _ _ _ => execIdxCont_elim (fun _ => .next _) (fun _ _ => .next _) (fun _ _ _ => .next _)
      fun _ _ _ => .next _)
    (hx8 := fun _ _ => readBits_elim (by omega) (by omega) (fun _ => .next _) fun _ => .next _)
    (hx16 := fun _ _ => readBits_elim (by omega) (by omega) (fun _ => .next _) fun _ => .next _)
    (hr8 := fun _ _ => readBits_elim (by omega) (by omega) (fun _ => .next _) fun _ => .next _)
    (hr16 := fun _ _ => readBits_elim (by omega) (by omega) (fun _ => .next _) fun _ => .next _)
    (hr16t := fun _ _ => readBits_elim (by omega) (by omega) (fun _ => .next _) fun _ => .next _)
    (hcrc8 := fun _ _ => execCrc8_elim (fun _ => .next _) (fun _ _ => beginChannels_goesOn) (fun _ _ _ => .next _)
      fun _ _ _ => beginChannels_goesOn)
    (hsfh := fun he _ _ _ => subframeHeader_elim (fits he rfl) (fun _ _ _ _ _ => .next _) (fun _ _ _ => .next _)
      (fun _ _ _ _ => .next _) (fun _ _ _ _ _ => .next _) (fun _ _ _ _ _ _ => .next _)
      (fun _ _ _ _ _ _ => .next _) fun _ _ _ _ _ _ => beginSamples_goesOn (h.ch_lt (by rw [he]; rfl)))
    (hwasted := fun he _ _ => execWasted_elim (fits he rfl) (fun _ _ _ => .next _)
      fun _ _ _ => beginSamples_goesOn (h.ch_lt (by rw [he]; rfl)))
    (hsample := fun he _ => execSample_elim (fits he rfl)
      (fun hw => by obtain ⟨h1, h33⟩ := h.elemWidth he; omega)
      (fun _ _ _ => .next _) (fun _ _ _ _ _ _ => .next _) fun _ _ _ _ _ _ => nextChannel_goesOn)
    (hpad := fun _ _ => .next _)
    (hcrc16 := fun _ _ => execCrc16_elim (fun _ => .next _) (fun _ _ => .next _) (fun _ _ _ => .next _)
      fun _ _ _ => .next _)

/-- A step goes on, or the host breaks its duty about the input (20 R51). -/
def Answered (s : State) (r : Res) : Prop :=
  GoesOn r ∨ r = .refused .inputChanged ∧ s.phase ≠ .idle ∧ ∃ bytes, s.pendingAction = some (.setInput bytes)

theorem Answered.next (s t : State) : Answered s (.next t) := .inl ⟨t, rfl⟩

/-- Settles O53: an element's step goes on by `runElement_goesOn`, and of the host's moves one is refused. -/
theorem everyStepHasAnOutcome : Obligations.EveryStepHasAnOutcome := by
  intro s h
  refine step_elim (P := Answered s) (fun _ => .inl (runElement_goesOn h))
    (fun _ => .inl (runElement_goesOn { h with })) fun a ha _ => ?_
  exact hostMove_elim (fun _ => .next s _) (fun _ _ => .next s _) (fun _ _ _ => .next s _) (fun _ _ _ => .next s _)
    (fun _ _ => .next s _) (fun _ _ _ => .next s _) (fun bytes hb hp => .inr ⟨rfl, hp, bytes, hb ▸ ha⟩)
    fun _ => .next s _

/-! ## Alignment -/

/-- A state that stands on a byte boundary. -/
theorem State.Aligned.of_cur (h : s.cur % 8 = 0) : s.Aligned := fun _ => h

theorem State.Aligned.of_free (h : s.mustAlign = false) : s.Aligned := fun hm => absurd (h ▸ hm) (by simp)

theorem fail_aligned {x : Failure} {off : Nat} : Answers State.Aligned (fail s x off) := .next (.of_free rfl)

theorem endOfBlock_aligned (h : s.cur % 8 = 0) : Answers State.Aligned (endOfBlock s) :=
  endOfBlock_elim (fun _ => .next (.of_cur h)) (fun _ _ => fail_aligned) fun _ _ => .next (.of_cur h)

theorem beginChannels_aligned (h : s.cur % 8 = 0) : Answers State.Aligned (beginChannels s) :=
  beginChannels_elim (fun _ => .next (.of_cur h)) fun _ => .next (.of_cur h)

/-- A later channel than the first starts at any bit. -/
theorem nextChannel_aligned (h : s.ch.toNat < 8) : Answers State.Aligned (nextChannel s) := by
  have hch : s.ch + 1 ≠ 0 := fun h0 => by
    have := toNat_ch_add_one h
    rw [h0] at this
    simp at this
  exact nextChannel_elim (fun _ => .next (.of_free (by simpa [State.mustAlign] using hch))) fun _ => .next (.of_free rfl)

theorem beginSamples_aligned {off : Nat} (h : s.ch.toNat < 8) : Answers State.Aligned (beginSamples off s) :=
  beginSamples_elim (fun _ => .fault _) (fun _ _ _ => fail_aligned) (fun _ _ _ _ _ _ _ => .next (.of_free rfl))
    fun _ _ _ _ _ _ _ => nextChannel_aligned h

/-- An element of `n` bytes, each read at once. -/
theorem readBits_aligned {n : Nat} {k : State → Res} (h1 : 1 ≤ n) (h36 : n ≤ 36)
    (hk : Answers State.Aligned (k (s.advance n))) : Answers State.Aligned (readBits n s k) :=
  readBits_elim h1 h36 (fun _ => fail_aligned) fun _ => hk

theorem runElement_aligned (hr : s.InRange) (h : s.Aligned) (he : s.elem ≠ .rest) :
    Answers State.Aligned (runElement s) := by
  have byte {x : Elem} {n : Nat} (hx : s.elem = x) (hfree : x ≠ .bsCode ∧ x ≠ .srCode ∧ x ≠ .caCode ∧ x ≠ .ssCode ∧
      x ≠ .rest ∧ x ≠ .wasted ∧ x ≠ .sample ∧ x ≠ .pad ∧ x ≠ .sfh) (hn : n % 8 = 0) : (s.cur + n) % 8 = 0 := by
    have : s.cur % 8 = 0 := h (by unfold State.mustAlign; rw [hx]; cases x <;> simp_all)
    omega
  exact runElement_elim (fun hrest => absurd hrest he)
    (hsig := fun hx w => readBits_aligned (by omega) (by omega) (by
      split
      · exact fail_aligned
      · exact .next (.of_cur (byte hx (by decide) rfl))))
    (hmbh := fun hx _ _ _ => blockHeader_elim (fun _ _ _ _ _ _ _ _ => fail_aligned)
      (fun _ _ _ => .next (.of_cur (byte hx (by decide) rfl))) fun _ _ _ => .next (.of_cur (byte hx (by decide) rfl)))
    (hsi := fun hx _ _ _ _ _ _ _ _ _ => execSiBody_elim (fun _ _ _ _ _ _ _ _ _ => fail_aligned)
      fun _ _ => endOfBlock_aligned (byte hx (by decide) rfl))
    (hbody := fun hx => skipBytes_elim (fun _ => fail_aligned)
      fun _ => endOfBlock_aligned (byte hx (by decide) (Nat.mul_mod_right _ _)))
    (hword := fun hx _ _ _ _ _ _ _ _ => execFhWord_elim (fun _ _ _ _ _ _ _ _ _ _ _ _ => fail_aligned)
      (fun _ _ _ _ _ _ _ _ _ _ _ hres => .next (.of_free (by
        obtain ⟨rfl, hc⟩ | ⟨rfl, hc⟩ | ⟨rfl, hc⟩ | ⟨rfl, hc⟩ := hres <;> simp [State.mustAlign, hc])))
      fun _ _ _ _ _ _ _ _ => .next (.of_cur (byte hx (by decide) rfl)))
    (hbs := fun hx => by
      have at0 (hc : bsTable s.params s.fh.blockSizeCode ≠ .reserved) : s.cur % 8 = 0 :=
        h (by simpa [State.mustAlign, hx] using hc)
      exact blockSizeRow_elim (fun _ => fail_aligned) (fun _ hc => .next (.of_cur (at0 (by simp [hc]))))
        (fun hc => .next (.of_cur (at0 (by simp [hc])))) fun hc => .next (.of_cur (at0 (by simp [hc]))))
    (hsr := fun hx => by
      have at0 (hc : srTable s.params s.fh.sampleRateCode ≠ .reserved) : s.cur % 8 = 0 :=
        h (by simpa [State.mustAlign, hx] using hc)
      exact sampleRateRow_elim (fun _ => fail_aligned) (fun _ hc => .next (.of_cur (at0 hc)))
        fun _ hc _ => .next (.of_cur (at0 hc)))
    (hca := fun hx => by
      have at0 (hc : caTable s.params s.fh.channelAssignmentCode ≠ .reserved) : s.cur % 8 = 0 :=
        h (by simpa [State.mustAlign, hx] using hc)
      exact channelRow_elim (fun _ => fail_aligned) (fun _ hc => .next (.of_cur (at0 (by simp [hc]))))
        fun hc => .next (.of_cur (at0 hc)))
    (hss := fun hx => by
      have at0 (hc : ssTable s.params s.fh.sampleSizeCode ≠ .reserved) : s.cur % 8 = 0 :=
        h (by simpa [State.mustAlign, hx] using hc)
      exact sampleSizeRow_elim (fun _ => fail_aligned) (fun hc => .next (.of_cur (at0 (by simp [hc]))))
        fun _ hc => .next (.of_cur (at0 (by simp [hc]))))
    (hidx1 := fun hx _ => execIdx1_elim (fun _ => fail_aligned) fun _ => .next (.of_cur (byte hx (by decide) rfl)))
    (hidxn := fun hx _ _ _ => indexFirst_elim (fun _ => fail_aligned)
      fun _ => .next (.of_cur (byte hx (by decide) rfl)))
    (hidxbad := fun _ => indexBad_elim (fun _ => fail_aligned) fun _ => fail_aligned)
    (hcont := fun hx _ _ => execIdxCont_elim (fun _ => fail_aligned) (fun _ _ => fail_aligned)
      (fun _ _ _ => .next (.of_cur (byte hx (by decide) rfl))) fun _ _ _ => .next (.of_cur (byte hx (by decide) rfl)))
    (hx8 := fun hx _ => readBits_aligned (by omega) (by omega) (.next (.of_cur (byte hx (by decide) rfl))))
    (hx16 := fun hx _ => readBits_aligned (by omega) (by omega) (.next (.of_cur (byte hx (by decide) rfl))))
    (hr8 := fun hx _ => readBits_aligned (by omega) (by omega) (.next (.of_cur (byte hx (by decide) rfl))))
    (hr16 := fun hx _ => readBits_aligned (by omega) (by omega) (.next (.of_cur (byte hx (by decide) rfl))))
    (hr16t := fun hx _ => readBits_aligned (by omega) (by omega) (.next (.of_cur (byte hx (by decide) rfl))))
    (hcrc8 := fun hx _ => execCrc8_elim (fun _ => fail_aligned)
      (fun _ _ => beginChannels_aligned (byte hx (by decide) rfl)) (fun _ _ _ => fail_aligned)
      fun _ _ _ => beginChannels_aligned (byte hx (by decide) rfl))
    (hsfh := fun hx _ _ _ => subframeHeader_elim (fun _ => .fault _) (fun _ _ _ _ _ => fail_aligned)
      (fun _ _ _ => fail_aligned) (fun _ _ _ _ => fail_aligned) (fun _ _ _ _ _ => fail_aligned)
      (fun _ _ _ _ _ _ => fail_aligned) (fun _ _ _ _ _ _ => .next (.of_free rfl))
      fun _ _ _ _ _ _ => beginSamples_aligned (hr.ch_lt (by rw [hx]; rfl)))
    (hwasted := fun hx _ _ => execWasted_elim (fun _ => .fault _) (fun _ _ _ => fail_aligned)
      fun _ _ _ => beginSamples_aligned (hr.ch_lt (by rw [hx]; rfl)))
    (hsample := fun hx _ => execSample_elim (fun _ => .fault _) (fun _ => .refused _) (fun _ _ _ => fail_aligned)
      (fun _ _ _ _ _ _ => .next (.of_free rfl)) fun _ _ _ _ _ _ => nextChannel_aligned (hr.ch_lt (by rw [hx]; rfl)))
    (hpad := fun _ _ => .next (.of_cur (Nat.mul_mod_left ((s.cur + 7) / 8) 8)))
    (hcrc16 := fun hx _ => execCrc16_elim (fun _ => fail_aligned)
      (fun _ _ => .next (.of_cur (byte hx (by decide) rfl))) (fun _ _ _ => fail_aligned)
      fun _ _ _ => .next (.of_cur (byte hx (by decide) rfl)))

/-- At a boundary in `P_FRAME` the cursor is aligned. -/
theorem State.Aligned.atBoundary (h : s.Aligned) (hb : s.atBoundary = true) (hp : s.phase = .frame) :
    s.cur % 8 = 0 := by
  refine h ?_
  unfold State.atBoundary at hb
  unfold State.mustAlign
  split at hb
  case h_4 => cases hb
  all_goals rename_i he; simp [he, hp]

/-- Settles O51: the host acts at an aligned boundary, and each element ends on one where the next begins there. -/
theorem alignmentKept : Obligations.AlignmentKept := fun s t hr h =>
  step_establishes (J := fun s => s.InRange ∧ s.Aligned) (fun _ h => ⟨{ h.1 with }, h.2⟩) (fun _ h => h.2)
    (fun _ h he => runElement_aligned h.1 h.2 he) (fun _ _ => .of_cur rfl) (fun _ _ _ _ => .of_cur rfl)
    (fun s h hb hp _ => .of_cur (s := { s with out := s.out ++ [.endOfStream], phase := .done }) (h.2.atBoundary hb hp))
    (fun s h hb hp => .of_cur (s := { s with elem := .fhWord }) (h.2.atBoundary hb hp)) (fun _ _ h => h.2)
    (fun _ _ h _ => h.2) s t ⟨hr, h⟩

/-- Settles O46: each invariant holds at reset. -/
theorem resetStateAndInvariants : Obligations.ResetStateAndInvariants :=
  ⟨rfl, rfl, rfl, rfl, rfl, rfl, rfl, rfl, rfl, rfl, rfl, rfl, ⟨Nat.zero_le _, fun _ => ⟨rfl, rfl⟩⟩, ⟨rfl, rfl⟩,
    by simp [State.PlaceAgrees, State.reset], reset_inRange, reset_subframesInRange, .of_cur rfl, reset_runShape⟩

/-! ## Coming to rest -/

/-- The steps that may still be taken. -/
def State.fuel (s : State) : Nat := 5 * s.rem + Elem.idleSteps s.elem

theorem idleSteps_le (e : Elem) : Elem.idleSteps e ≤ 4 := by cases e <;> decide

/-- An own step comes to rest or uses up fuel. -/
theorem Ran.rest_or_fuel_lt (h : Ran s.elem s t) (hin : t.cur ≤ 8 * t.len) : t.elem = .rest ∨ t.fuel < s.fuel := by
  have hlen := h.len
  cases h with
  | failed _ _ => exact .inl rfl
  | went went =>
    refine .inr ?_
    have hcur : s.cur ≤ t.cur := went.cursor.1
    have hidle := idleSteps_le t.elem
    unfold State.fuel State.rem
    rcases went.progress with h | h <;> omega

theorem step_of_host_nil (h : s.host = []) : step s = runElement s := by
  have : s.pendingAction = none := by unfold State.pendingAction; split <;> simp [h]
  rw [step, this]

/-- With no action left the framer comes to rest within its fuel. -/
theorem run_rests (n : Nat) (hn : s.fuel < n) (hin : s.CursorInside) (hr : s.InRange) (hh : s.host = []) :
    ∃ k t, k ≤ n ∧ Host.Core.run core k s = .next t ∧ t.elem = .rest := by
  induction n generalizing s with
  | zero => exact absurd hn (Nat.not_lt_zero _)
  | succ n ih =>
    by_cases he : s.elem = .rest
    · exact ⟨0, s, Nat.zero_le _, run_zero s, he⟩
    obtain ⟨t, ht⟩ := runElement_goesOn hr
    have ran : Ran s.elem s t := ((runElement_ran s) t ht).elim (fun h => absurd h.1 he) And.right
    have hstep : step s = .next t := (step_of_host_nil hh).trans ht
    have hin' := cursorStaysInside s t hin hstep
    rcases ran.rest_or_fuel_lt hin'.1 with hrest | hlt
    · exact ⟨1, t, by omega, (run_succ hstep).trans (run_zero t), hrest⟩
    · obtain ⟨k, v, hk, hrun, hv⟩ := ih (by omega) hin' (step_inRange s t hr hstep) (ran.host.trans hh)
      exact ⟨k + 1, v, by omega, (run_succ hstep).trans hrun, hv⟩

/-- Settles O60: the fuel at the start is within the bound. -/
theorem ownStepsComeToRest : Obligations.OwnStepsComeToRest := by
  intro s hin hr hh
  obtain ⟨k, t, hk, hrun, ht⟩ := run_rests (s.fuel + 1) (Nat.lt_succ_self _) hin hr hh
  have := idleSteps_le s.elem
  exact ⟨k, t, by unfold State.fuel State.rem at hk; omega, hrun, ht⟩

end Sys2Proof.Machine
end

section
/-!
The BitReader and the failures (spec/40, spec/60), the step (48 R270) and the host's moves (48 R271 to R279).
-/

namespace Sys2Proof.Machine

variable {s t u : State} {f : Subframe} {k : State → Res}

/-! ## The BitReader -/

theorem State.le_alignToByte_cur (s : State) : s.cur ≤ s.alignToByte.cur := by
  change s.cur ≤ (s.cur + 7) / 8 * 8
  omega

theorem State.alignToByte_cur_lt (s : State) : s.alignToByte.cur < s.cur + 8 := by
  change (s.cur + 7) / 8 * 8 < s.cur + 8
  omega

/-- The input ends at a byte boundary. -/
theorem State.alignToByte_cur_le (h : s.cur ≤ 8 * s.len) : s.alignToByte.cur ≤ 8 * s.len := by
  change (s.cur + 7) / 8 * 8 ≤ 8 * s.len
  omega

/-- Settles O8: each operation's two outcomes, from whether the bits are there. -/
theorem bitReaderContracts : Obligations.BitReaderContracts := fun s _ =>
  ⟨rfl, fun _ h1 h36 h => readBits_of_le h1 h36 h, fun _ h1 h36 h => readBits_of_lt h1 h36 h,
    fun _ h => readBits_of_width h, fun _ h => consume_of_le h, fun _ h => consume_of_lt h, fun _ h => consume_of_le h,
    fun _ h => consume_of_lt h, rfl, s.le_alignToByte_cur, s.alignToByte_cur_lt, Nat.mul_mod_left _ 8,
    State.alignToByte_cur_le⟩

/-! ## The failures -/

/-- The code gives the failure back. -/
theorem Failure.ofNat_code (x : Failure) : Failure.ofNat (x.code.toNat - 1) = x := by cases x <;> rfl

theorem Failure.code_injective {x y : Failure} (h : x.code = y.code) : x = y := by
  rw [← x.ofNat_code, h, y.ofNat_code]

/-- Settles O10. -/
theorem raiseRecordsFailure : Obligations.RaiseRecordsFailure :=
  ⟨fun _ _ _ => rfl, rfl, fun x => by cases x <;> decide, fun _ _ => Failure.code_injective⟩

/-! ## One step -/

theorem fetch_of_decode {i : Instr} {rest : Bits}
    (h : decode s.params s.elem s.elemWidth s.window = .ok (i, rest)) : fetch s = some i := by
  rw [fetch, h]

/-- The host's list is no operand of an instruction. -/
theorem fetch_popHost (s : State) : fetch s.popHost = fetch s := rfl

theorem step_own (h : s.pendingAction = none) : step s = runElement s := by rw [step, h]

theorem step_wait (h : s.pendingAction = some .wait) : step s = runElement s.popHost := by rw [step, h]

theorem step_host {a : HostAction} (h : s.pendingAction = some a) (ha : a ≠ .wait) :
    step s = hostMove a s.popHost := by
  rw [step, h]
  cases a with
  | wait => exact absurd rfl ha
  | reset | start | next | setLenient | setInput => rfl

/-- Settles O4: the fetched instruction, and the three answers to a pending action. -/
theorem stepRunsFetchedInstruction : Obligations.StepRunsFetchedInstruction := by
  refine ⟨fun s i rest h => ⟨fun hown => ?own, fun hwait => ?wait⟩, fun s hrest hown => ?rest,
    fun s a ha hne => step_host ha hne⟩
  case own => rw [step_own hown, runElement_of_fetch (fetch_of_decode h)]
  case wait => rw [step_wait hwait, runElement_of_fetch ((fetch_popHost s).trans (fetch_of_decode h))]
  case rest => rw [step_own hown, runElement, fetch_rest hrest]

/-! ## The moves of the host -/

/-- At a boundary the first action of the host's list is taken. -/
theorem step_of_host {a : HostAction} {rest : List HostAction} (hb : s.atBoundary = true) (hh : s.host = a :: rest)
    (ha : a ≠ .wait) : step s = hostMove a { s with host := rest } := by
  have hp : s.pendingAction = some a := by rw [State.pendingAction, if_pos hb, hh]; rfl
  rw [step_host hp ha, State.popHost, hh, List.tail_cons]

theorem State.toStart_of_idle (h : s.phase = .idle) :
    s.toStart = { s with cur := 0, policy := s.lenient, phase := .sig, elem := .sig } := if_pos h

theorem State.toStart_of_ne (h : s.phase ≠ .idle) : s.toStart = s := if_neg h

theorem State.toNext_of_end (h : s.phase = .frame) (he : s.cur = 8 * s.len) :
    s.toNext = { s with out := s.out ++ [.endOfStream], phase := .done } := by rw [State.toNext, if_pos h, if_pos he]

theorem State.toNext_of_more (h : s.phase = .frame) (he : s.cur ≠ 8 * s.len):
    s.toNext = { s with elem := .fhWord } := by
  rw [State.toNext, if_pos h, if_neg he]; rfl

theorem State.toNext_of_ne (h : s.phase ≠ .frame) : s.toNext = s := if_neg h

theorem setInput_of_idle {bytes : List Byte} (h : s.phase = .idle) :
    setInput bytes s = .next { s with mem := Memory.ofBytes 0 bytes, len := bytes.length } := if_pos h

theorem setInput_of_ne {bytes : List Byte} (h : s.phase ≠ .idle) : setInput bytes s = .refused .inputChanged := if_neg h

/-- The input holds the bytes it was set to. -/
theorem readByte?_ofBytes (s : State) (bytes : List Byte) (a : Nat) :
    { s with mem := Memory.ofBytes 0 bytes, len := bytes.length }.readByte? a = bytes[a]? := by
  have hread := Memory.read_ofBytes bytes 0 a
  rw [Nat.zero_add] at hread
  rw [State.readByte?]
  split
  · next h => rw [hread, List.getD_eq_getElem?_getD, List.getElem?_eq_getElem h, Option.getD_some]
  · next h => exact (List.getElem?_eq_none (Nat.le_of_not_lt h)).symm

/-- Settles O43: each move by its own equation. -/
theorem hostMoves : Obligations.HostMoves := by
  refine fun s rest hb => ⟨fun hh hp => ?start, fun hh hp => ?noStart, fun hh hp he => ?ends, fun hh hp he => ?frame,
    fun hh hp => ?noNext, fun b hh => step_of_host hb hh nofun, fun bytes hh hp => ⟨Memory.ofBytes 0 bytes, ?input,
      readByte?_ofBytes s bytes⟩⟩ <;> rw [step_of_host hb hh nofun, hostMove]
  case start => exact congrArg _ (State.toStart_of_idle hp)
  case noStart => exact congrArg _ (State.toStart_of_ne hp)
  case ends => exact congrArg _ (State.toNext_of_end hp he)
  case frame => exact congrArg _ (State.toNext_of_more hp he)
  case noNext => exact congrArg _ (State.toNext_of_ne hp)
  case input => exact setInput_of_idle hp

/-- Settles O44: `State.toReset` at the state without its first action. -/
theorem resetCommand : Obligations.ResetCommand := fun s rest hb hh =>
  ⟨State.toReset { s with host := rest }, step_of_host hb hh nofun, rfl, rfl, rfl, rfl, rfl, rfl, rfl, rfl, rfl, rfl,
    rfl, rfl, rfl, rfl, rfl, fun _ => rfl⟩

/-! ## The stops -/

/-- Without an entry of the register file no subframe element runs. -/
theorem exec_of_noSubframe {i : Instr} (h : 8 ≤ s.ch.toNat) (hi : Elem.inSubframe i.elem = true) :
    exec i s = .fault (.noSubframe s.ch) := by
  cases i <;> simp only [Instr.elem, Elem.inSubframe, Bool.false_eq_true] at hi <;> exact withSubframe_of_ge h

/-- Settles O45. -/
theorem stopsByName : Obligations.StopsByName := by
  refine ⟨fun s i h hi => exec_of_noSubframe h hi, fun s w field hch hw => ?width, fun s bytes rest hb hh hp => ?input⟩
  case width =>
    exact (withSubframe_of_lt hch).trans (readBits_of_width hw)
  case input => rw [step_of_host hb hh nofun]; exact setInput_of_ne hp

end Sys2Proof.Machine
end

section
/-!
The signature, the metadata chain (spec/41) and the StreamInfo body (spec/42): what each element writes, and where it
fails.
-/

namespace Sys2Proof.Machine

variable {s u : State} {l : Bool} {t : BitVec 7} {n : BitVec 24}

/-- A failure, inside the element, at a byte known by another name. -/
theorem raises_fail_at {e : Failure} {off off' : Nat} (hoff : off' = off) (hout : u.out = s.out := by rfl)
    (hvalid : u.siValid = s.siValid := by rfl) (hmem : u.mem = s.mem := by rfl) (hlen : u.len = s.len := by rfl) :
    Raises (fail u e off') s e off := hoff ▸ raises_fail e off' hout hvalid hmem hlen

/-! ## The signature -/

theorem exec_sig (w : BitVec 32) (s : State) : exec (.sig w) s = execSig w s := rfl

theorem execSig_of_le {w : BitVec 32} (h : 32 ≤ s.rem) :
    execSig w s = if w ≠ s.params.sig then fail (s.advance 32) .badSignature s.off
      else .next { s with cur := s.cur + 32, phase := .mbh, elem := .mbh } := by
  rw [execSig, readBits_of_le (by decide) (by decide) h]; rfl

theorem execSig_of_lt {w : BitVec 32} (h : s.rem < 32) : execSig w s = fail s .outOfData s.off :=
  readBits_of_lt (by decide) (by decide) h

/-- Settles O11. -/
theorem signatureElement : Obligations.SignatureElement := by
  refine fun w s => ⟨fun h hw => ?accepted, fun h hw => ?refused, fun h => ?cut⟩ <;> rw [exec_sig]
  case accepted => rw [execSig_of_le h, if_neg (not_not_intro hw)]
  case refused => rw [execSig_of_le h, if_pos hw]; exact raises_fail_at rfl
  case cut => rw [execSig_of_lt h]; exact raises_fail_self _ _

/-! ## The block headers -/

theorem exec_mbhOther (l : Bool) (t : BitVec 7) (n : BitVec 24) (s : State) :
    exec (.mbhOther l t n) s = blockHeader l t n s := rfl

theorem exec_mbhSi (l : Bool) (n : BitVec 24) (s : State) :
    exec (.mbhSi l n) s = blockHeader l s.params.tStreamInfo n s := rfl

/-- The header's first byte, which holds two fields, is not there whole. -/
theorem blockHeader_raises_of_lt (hal : s.cur % 8 = 0) (h : s.rem < 8) :
    Raises (blockHeader l t n s) s .outOfData (s.cur / 8) := by
  unfold blockHeader
  rcases Nat.lt_or_ge s.rem 1 with h1 | h1
  · rw [readBits_of_lt (by decide) (by decide) h1]
    exact raises_fail_self _ _
  · rw [readBits_of_le (by decide) (by decide) h1,
      readBits_of_lt (by decide) (by decide) (by rw [State.rem_setMb, State.rem_advance]; omega)]
    exact raises_fail_at (show (s.cur + 1) / 8 = s.cur / 8 by omega)

/-- A first block of another type. -/
theorem blockHeader_raises_of_first (h : 8 ≤ s.rem) (ht : t ≠ s.params.tStreamInfo) (hf : s.first = true) :
    Raises (blockHeader l t n s) s .missingStreamInfo (s.cur / 8) := by
  unfold blockHeader
  rw [readBits_of_le (by decide) (by decide) (by omega),
    readBits_of_le (by decide) (by decide) (by rw [State.rem_setMb, State.rem_advance]; omega)]
  change Raises (if s.first = true ∧ t ≠ s.params.tStreamInfo then fail _ _ s.off else _) s _ _
  rw [if_pos ⟨hf, ht⟩]
  exact raises_fail_at rfl

/-- The type is accepted, the length is not there. -/
theorem blockHeader_raises_of_lt_length (hal : s.cur % 8 = 0) (h8 : 8 ≤ s.rem) (h : s.rem < 32)
    (hf : ¬(s.first = true ∧ t ≠ s.params.tStreamInfo)) :
    Raises (blockHeader l t n s) s .outOfData (s.cur / 8 + 1) := by
  have hrem : State.rem { (s.advance 8).setMb { s.mb with isLast := l, blockType := t } with first := false } < 24 := by
    change 8 * s.len - (s.cur + 8) < 24
    unfold State.rem at h
    omega
  rw [blockHeader_of_type h8 hf, readBits_of_lt (by decide) (by decide) hrem]
  exact raises_fail_at (show (s.cur + 8) / 8 = s.cur / 8 + 1 by omega)

/-- The type is accepted and the length is there. -/
theorem blockHeader_of_le (h : 32 ≤ s.rem) (hf : ¬(s.first = true ∧ t ≠ s.params.tStreamInfo)) :
    blockHeader l t n s =
      if t ≠ s.params.tStreamInfo then
        .next { s with cur := s.cur + 32, mb := ⟨l, t, n⟩, first := false, elem := .mbBody }
      else if n ≠ 34 then
        fail { s with cur := s.cur + 32, mb := ⟨l, t, n⟩, first := false } .invalidStreamInfo (s.off + 1)
      else .next { s with cur := s.cur + 32, mb := ⟨l, t, n⟩, first := false, elem := .siBody } := by
  have hrem : 24 ≤ State.rem { (s.advance 8).setMb { s.mb with isLast := l, blockType := t } with first := false } := by
    change 24 ≤ 8 * s.len - (s.cur + 8)
    unfold State.rem at h
    omega
  rw [blockHeader_of_type (by omega) hf, readBits_of_le (by decide) (by decide) hrem]
  rfl

/-- Settles O12. -/
theorem blockHeaderRegisters : Obligations.BlockHeaderRegisters := by
  refine fun l t n s hal => ⟨fun h ht hf => ?other, fun h hn => ?si, fun h =>
    ⟨blockHeader_raises_of_lt hal h, blockHeader_raises_of_lt hal h⟩, fun h8 h =>
    ⟨blockHeader_raises_of_lt_length hal h8 h (fun hc => hc.2 rfl), fun hf =>
      blockHeader_raises_of_lt_length hal h8 h (by simp [hf])⟩⟩
  case other =>
    rw [exec_mbhOther, blockHeader_of_le h (by simp [hf]), if_pos ht, hf]
  case si =>
    rw [exec_mbhSi, blockHeader_of_le h (fun hc => hc.2 rfl), if_neg (not_not_intro rfl), if_neg (not_not_intro hn)]

/-- Settles O13. -/
theorem blockHeaderRefusals : Obligations.BlockHeaderRefusals := by
  refine fun l t n s => ⟨fun h ht hf => blockHeader_raises_of_first h ht hf, fun h hn => ?_⟩
  rw [exec_mbhSi, blockHeader_of_le h (fun hc => hc.2 rfl), if_neg (not_not_intro rfl), if_pos hn]
  exact raises_fail_at rfl

/-! ## The end of a block, and the other blocks -/

theorem endOfBlock_raises (hl : u.mb.isLast = true) (h1 : u.seenSi ≠ 1) {off : Nat} (hoff : u.off = off)
    (hout : u.out = s.out := by rfl) (hvalid : u.siValid = s.siValid := by rfl) (hmem : u.mem = s.mem := by rfl)
    (hlen : u.len = s.len := by rfl) : Raises (endOfBlock u) s .missingStreamInfo off := by
  rw [endOfBlock_of_bad hl h1]; exact raises_fail_at hoff hout hvalid hmem hlen

theorem exec_mbBody (s : State) : exec .mbBody s = execMbBody s := rfl

theorem execMbBody_of_le (h : 8 * s.mb.length.toNat ≤ s.rem) :
    execMbBody s = endOfBlock { s with cur := s.cur + 8 * s.mb.length.toNat } := consume_of_le h

theorem execMbBody_of_lt (h : s.rem < 8 * s.mb.length.toNat) : execMbBody s = fail s .outOfData s.off :=
  consume_of_lt h

/-- Settles O16. -/
theorem skippedBodyAndChainEnd : Obligations.SkippedBodyAndChainEnd := by
  refine fun s => ⟨fun h hl => ?more, fun h hl h1 => ?chainEnd, fun h hl h1 => ?missing, fun h => ?cut⟩
    <;> rw [exec_mbBody]
  case more => exact (execMbBody_of_le h).trans (endOfBlock_of_more hl)
  case chainEnd => exact (execMbBody_of_le h).trans (endOfBlock_of_one hl h1)
  case missing =>
    rw [execMbBody_of_le h]
    refine endOfBlock_raises ?_ ?_ ?_
    exacts [hl, h1, Nat.add_mul_div_left _ _ (by decide)]
  case cut => rw [execMbBody_of_lt h]; exact raises_fail_self _ _

/-! ## The StreamInfo body -/

section

variable {minBlock maxBlock : BitVec 16} {minFrame maxFrame : BitVec 24} {rate : BitVec 20}
  {channels : BitVec 3} {depth : BitVec 5} {total : BitVec 36} {hash : BitVec 128}

theorem exec_siBody (minBlock maxBlock : BitVec 16) (minFrame maxFrame : BitVec 24) (rate : BitVec 20)
    (channels : BitVec 3) (depth : BitVec 5) (total : BitVec 36) (hash : BitVec 128) (s : State) :
    exec (.siBody minBlock maxBlock minFrame maxFrame rate channels depth total hash) s =
      execSiBody minBlock maxBlock minFrame maxFrame rate channels depth total hash s := rfl

theorem seenNext_of_ne_zero {m : BitVec 2} (h : m ≠ 0) : seenNext m = 2 := by
  revert m; decide

/-- The registers a whole body writes. -/
def siRegisters (minBlock maxBlock : BitVec 16) (minFrame maxFrame : BitVec 24) (rate : BitVec 20)
    (channels : BitVec 3) (depth : BitVec 5) (total : BitVec 36) (hash : BitVec 128) : StreamInfo :=
  ⟨minBlock, maxBlock, minFrame, maxFrame, rate, siChannelCount channels, siBitsPerSample depth, total, hash⟩

/-- Settles O14: `execSiBody_of_le`, and the three ends of a block. -/
theorem streamInfoBodyDecoded : Obligations.StreamInfoBodyDecoded := by
  refine fun minBlock maxBlock minFrame maxFrame rate channels depth total hash s h hrate =>
    ⟨siRegisters minBlock maxBlock minFrame maxFrame rate channels depth total hash, rfl, rfl, rfl, rfl, rfl,
      toNat_siChannelCount channels, toNat_siBitsPerSample depth, rfl, rfl, fun hl h0 => ?first, fun hl h0 => ?again,
      fun hl h0 => ?chainEnd, fun hl h0 => ?missing⟩ <;> rw [exec_siBody, execSiBody_of_le h hrate]
  case first => rw [h0]; exact endOfBlock_of_more hl
  case again => rw [seenNext_of_ne_zero h0]; exact endOfBlock_of_more hl
  case chainEnd => rw [h0]; exact endOfBlock_of_one hl rfl
  case missing =>
    rw [seenNext_of_ne_zero h0]
    refine endOfBlock_raises ?_ ?_ ?_
    exacts [hl, (by decide : (2 : BitVec 2) ≠ 1), rfl]

/-- Where the fields of a StreamInfo body stand: the field at bit `a` has `n` bits. -/
def SiField (a n : Nat) : Prop :=
  a = 0 ∧ n = 16 ∨ a = 16 ∧ n = 16 ∨ a = 32 ∧ n = 24 ∨ a = 56 ∧ n = 24 ∨ a = 80 ∧ n = 20 ∨ a = 100 ∧ n = 3 ∨
    a = 103 ∧ n = 5 ∨ a = 108 ∧ n = 36 ∨ 144 ≤ a ∧ a < 272 ∧ a % 8 = 0 ∧ n = 8

/-- Where a StreamInfo body stops: at the first field that is not there, or at the rate, once it is read as 0. -/
theorem execSiBody_stops {P : Res → Prop}
    (hcut : ∀ a n si, SiField a n → (a ≤ 80 ∨ rate ≠ 0) → a ≤ s.rem → s.rem < a + n →
      P (fail ((s.advance a).setSi si) .outOfData ((s.cur + a) / 8)))
    (hzero : ∀ si, 100 ≤ s.rem → rate = 0 → P (fail ((s.advance 100).setSi si) .invalidStreamInfo (s.cur / 8 + 10)))
    (hgo : 272 ≤ s.rem → rate ≠ 0 →
      P (execSiBody minBlock maxBlock minFrame maxFrame rate channels depth total hash s)) :
    P (execSiBody minBlock maxBlock minFrame maxFrame rate channels depth total hash s) := by
  by_cases hall : 272 ≤ s.rem ∧ rate ≠ 0
  · exact hgo hall.1 hall.2
  have cut {a n : Nat} {si : StreamInfo} (hfield : SiField a n) (hr : a ≤ 80 ∨ rate ≠ 0) (ha : a ≤ s.rem)
      (hn : ((s.advance a).setSi si).rem < n) : P (fail ((s.advance a).setSi si) .outOfData ((s.cur + a) / 8)) :=
    hcut a n si hfield hr ha (by rw [State.rem_setSi, State.rem_advance] at hn; omega)
  have there {a n : Nat} {si : StreamInfo} (ha : a ≤ s.rem) (hn : n ≤ ((s.advance a).setSi si).rem) : a + n ≤ s.rem := by
    rw [State.rem_setSi, State.rem_advance] at hn; omega
  unfold execSiBody
  dsimp only
  refine readBits_elim (by omega) (by omega) (fun h => cut (a := 0) (si := s.si) (by simp [SiField]) (.inl (by omega))
    (Nat.zero_le _) h) fun h16 => ?_
  simp only [State.advance_si]
  refine readBits_elim (by omega) (by omega) (fun h => cut (by simp [SiField]) (.inl (by omega)) h16 h) fun h => ?_
  have h32 := there h16 h
  simp only [State.setSi_advance, State.setSi_setSi, State.advance_advance, State.setSi_si]
  refine readBits_elim (by omega) (by omega) (fun h => cut (by simp [SiField]) (.inl (by omega)) h32 h) fun h => ?_
  have h56 := there h32 h
  simp only [State.setSi_advance, State.setSi_setSi, State.advance_advance, State.setSi_si]
  refine readBits_elim (by omega) (by omega) (fun h => cut (by simp [SiField]) (.inl (by omega)) h56 h) fun h => ?_
  have h80 := there h56 h
  simp only [State.setSi_advance, State.setSi_setSi, State.advance_advance, State.setSi_si]
  refine readBits_elim (by omega) (by omega) (fun h => cut (by simp [SiField]) (.inl (by omega)) h80 h) fun h => ?_
  have h100 := there h80 h
  simp only [State.setSi_advance, State.setSi_setSi, State.advance_advance, State.setSi_si]
  split
  · exact hzero _ h100 ‹_›
  rename_i hrate
  refine readBits_elim (by omega) (by omega) (fun h => cut (by simp [SiField]) (.inr hrate) h100 h) fun h => ?_
  have h103 := there h100 h
  simp only [State.setSi_advance, State.setSi_setSi, State.advance_advance, State.setSi_si]
  refine readBits_elim (by omega) (by omega) (fun h => cut (by simp [SiField]) (.inr hrate) h103 h) fun h => ?_
  have h108 := there h103 h
  simp only [State.setSi_advance, State.setSi_setSi, State.advance_advance, State.setSi_si]
  refine readBits_elim (by omega) (by omega) (fun h => cut (by simp [SiField]) (.inr hrate) h108 h) fun h => ?_
  have h144 := there h108 h
  simp only [State.setSi_advance, State.setSi_setSi, State.advance_advance, State.setSi_si]
  refine readBytes_elim (fun i hi hle hlt => ?_) fun h => absurd ⟨there h144 h, hrate⟩ hall
  rw [State.rem_setSi, State.rem_advance] at hle hlt
  rw [State.setSi_advance, State.advance_advance]
  change P (fail _ _ ((s.cur + 144) / 8 + i))
  rw [show (s.cur + 144) / 8 + i = (s.cur + (144 + 8 * i)) / 8 by omega]
  exact hcut (144 + 8 * i) 8 _ (by unfold SiField; omega) (.inr hrate) (by omega) (by omega)

/-- The byte of the first field that does not fit. -/
theorem execSiBody_raises {a n : Nat} (hf : SiField a n) (ha : a ≤ s.rem) (hn : s.rem < a + n) (hr : a ≤ 80 ∨ rate ≠ 0) :
    Raises (execSiBody minBlock maxBlock minFrame maxFrame rate channels depth total hash s) s .outOfData
      ((s.cur + a) / 8) := by
  unfold SiField at hf
  refine execSiBody_stops (P := (Raises · s .outOfData ((s.cur + a) / 8))) (fun a' n' si hf' _ ha' hn' => ?_)
    (fun si h h0 => ?_) fun h _ => ?_
  · obtain rfl : a' = a := by unfold SiField at hf'; omega
    exact raises_fail_at rfl
  · have : a ≤ 80 := hr.resolve_right (not_not_intro h0)
    omega
  · omega

/-- Settles O15: `execSiBody_raises` at each field, whose first bit is that many bits on. -/
theorem streamInfoBodyFailures : Obligations.StreamInfoBodyFailures := by
  intro minBlock maxBlock minFrame maxFrame rate channels depth total hash s hal
  have at_ {a n off : Nat} (hoff : s.cur / 8 + off = (s.cur + a) / 8) (hf : SiField a n) (ha : a ≤ s.rem)
      (hn : s.rem < a + n) (hr : a ≤ 80 ∨ rate ≠ 0) :
      Raises (exec (.siBody minBlock maxBlock minFrame maxFrame rate channels depth total hash) s) s .outOfData
        (s.cur / 8 + off) := hoff ▸ execSiBody_raises hf ha hn hr
  refine ⟨fun h => at_ (a := 0) (off := 0) rfl (.inl ⟨rfl, rfl⟩) (Nat.zero_le _) (by omega) (by omega),
    fun h1 h2 => at_ (a := 16) (n := 16) (by omega) (by simp [SiField]) h1 h2 (by omega),
    fun h1 h2 => at_ (a := 32) (n := 24) (by omega) (by simp [SiField]) h1 h2 (by omega),
    fun h1 h2 => at_ (a := 56) (n := 24) (by omega) (by simp [SiField]) h1 h2 (by omega),
    fun h1 h2 => at_ (a := 80) (n := 20) (by omega) (by simp [SiField]) h1 h2 (by omega), fun h hr => ?zero,
    fun h1 h2 hr => ?counts,
    fun h1 h2 hr => at_ (a := 108) (n := 36) (by omega) (by simp [SiField]) h1 h2 (.inr hr),
    fun i hi h1 h2 hr => ?hash⟩
  case zero =>
    refine execSiBody_stops (P := (Raises · s .invalidStreamInfo (s.cur / 8 + 10)))
      (fun a n si hf hra _ hn => ?_) (fun si _ _ => raises_fail_at rfl) fun _ h => absurd hr h
    have := hra.resolve_right (not_not_intro hr)
    unfold SiField at hf
    omega
  case counts =>
    rcases Nat.lt_or_ge s.rem 103 with h | h
    · exact at_ (a := 100) (n := 3) (by omega) (by simp [SiField]) h1 h (.inr hr)
    · exact at_ (a := 103) (n := 5) (by omega) (by simp [SiField]) h h2 (.inr hr)
  case hash =>
    rw [Nat.add_assoc]
    exact at_ (a := 144 + 8 * i) (n := 8) (by omega) (by unfold SiField; omega) h1 (by omega) (.inr hr)

end

end Sys2Proof.Machine
end

section
/-!
The frame header (spec/43): the fixed word, field by field; the rows of its four codes; and the way from the block-size
code to the CRC-8.
-/

namespace Sys2Proof.Machine

variable {s t u : State} {n : Nat}

/-! ## The fixed word, field by field

`execFhWord` is cut before each of its codes; `p` is the frame's first byte and `cfg` the parameters. -/

section

variable {p : Nat} {cfg : Params} {bsc src cac : BitVec 4} {ssc : BitVec 3} {z1 z2 b : Bool} {sync : BitVec 14}

/-- The word from its second zero bit on. -/
def fhLastBit (p : Nat) (z2 : Bool) (s : State) : Res :=
  readBits 1 s fun s => if z2 then fail s .frameSyncLost (p + 3) else .next (s.goto .idx)

/-- The word from the sample-size code on. -/
def fhFromSampleSize (p : Nat) (cfg : Params) (ssc : BitVec 3) (z2 : Bool) (s : State) : Res :=
  readBits 3 s fun s =>
    if ssTable cfg ssc = .reserved then .next ((s.setFh { s.fh with sampleSizeCode := ssc }).goto .ssCode)
    else fhLastBit p z2 (s.setFh { s.fh with sampleSizeCode := ssc })

/-- The word from the channel code on. -/
def fhFromChannels (p : Nat) (cfg : Params) (cac : BitVec 4) (ssc : BitVec 3) (z2 : Bool) (s : State) : Res :=
  readBits 4 s fun s =>
    if caTable cfg cac = .reserved then .next ((s.setFh { s.fh with channelAssignmentCode := cac }).goto .caCode)
    else fhFromSampleSize p cfg ssc z2 (s.setFh { s.fh with channelAssignmentCode := cac })

/-- The word from the sample-rate code on. -/
def fhFromRate (p : Nat) (cfg : Params) (src cac : BitVec 4) (ssc : BitVec 3) (z2 : Bool) (s : State) : Res :=
  readBits 4 s fun s =>
    if srTable cfg src = .reserved then .next ((s.setFh { s.fh with sampleRateCode := src }).goto .srCode)
    else fhFromChannels p cfg cac ssc z2 (s.setFh { s.fh with sampleRateCode := src })

/-- The word from the block-size code on. -/
def fhFromBlockSize (p : Nat) (cfg : Params) (bsc src cac : BitVec 4) (ssc : BitVec 3) (z2 : Bool) (s : State) : Res :=
  readBits 4 s fun s =>
    if bsTable cfg bsc = .reserved then .next ((s.setFh { s.fh with blockSizeCode := bsc }).goto .bsCode)
    else fhFromRate p cfg src cac ssc z2 (s.setFh { s.fh with blockSizeCode := bsc })

theorem exec_fhWord (sync : BitVec 14) (z1 b : Bool) (bsc src cac : BitVec 4) (ssc : BitVec 3) (z2 : Bool) (s : State) :
    exec (.fhWord sync z1 b bsc src cac ssc z2) s = execFhWord sync z1 b bsc src cac ssc z2 s := rfl

/-- The sync pattern is there, and wrong. -/
theorem execFhWord_of_sync (h : 14 ≤ s.rem) (hs : sync ≠ s.params.sync14) :
    execFhWord sync z1 b bsc src cac ssc z2 s =
      fail ((s.advance 14).setFh { s.fh with start := s.off }) .frameSyncLost s.off := by
  unfold execFhWord
  dsimp only
  rw [readBits_of_le (by decide) (by decide) (by rw [State.rem_setFh]; exact h), if_pos hs]
  rfl

/-- The first zero bit is there, and set. -/
theorem execFhWord_of_zeroBit (h : 15 ≤ s.rem) :
    execFhWord s.params.sync14 true b bsc src cac ssc z2 s =
      fail ((s.advance 15).setFh { s.fh with start := s.off }) .frameSyncLost (s.off + 1) := by
  unfold execFhWord
  dsimp only
  rw [readBits_of_le (by decide) (by decide) (by rw [State.rem_setFh]; omega), if_neg (not_not_intro rfl),
    readBits_of_le (by decide) (by decide) (by rw [State.rem_advance, State.rem_setFh]; omega), if_pos rfl]
  rfl

theorem execFhWord_of_lt (h : s.rem < 14) :
    execFhWord sync z1 b bsc src cac ssc z2 s =
      fail (s.setFh { s.fh with start := s.off }) .outOfData s.off :=
  readBits_of_lt (by decide) (by decide) h

/-- The two bytes before the codes are accepted. -/
theorem execFhWord_of_accepted (h : 16 ≤ s.rem) :
    execFhWord s.params.sync14 false b bsc src cac ssc z2 s =
      fhFromBlockSize s.off s.params bsc src cac ssc z2
        ((s.advance 16).setFh { s.fh with start := s.off, blockingStrategyFixed := strategyFixed b }) := by
  unfold execFhWord
  dsimp only
  rw [readBits_of_le (by decide) (by decide) (by rw [State.rem_setFh]; omega), if_neg (not_not_intro rfl),
    readBits_of_le (by decide) (by decide) (by rw [State.rem_advance, State.rem_setFh]; omega), if_neg (by decide),
    readBits_of_le (by decide) (by decide) (by rw [State.rem_advance, State.rem_advance, State.rem_setFh]; omega)]
  rfl

theorem fhFromBlockSize_of_reserved (h : 4 ≤ s.rem) (hc : bsTable cfg bsc = .reserved) :
    fhFromBlockSize p cfg bsc src cac ssc z2 s =
      .next (((s.advance 4).setFh { s.fh with blockSizeCode := bsc }).goto .bsCode) := by
  rw [fhFromBlockSize, readBits_of_le (by decide) (by decide) h, if_pos hc]; rfl

theorem fhFromBlockSize_of_legal (h : 4 ≤ s.rem) (hc : bsTable cfg bsc ≠ .reserved) :
    fhFromBlockSize p cfg bsc src cac ssc z2 s =
      fhFromRate p cfg src cac ssc z2 ((s.advance 4).setFh { s.fh with blockSizeCode := bsc }) := by
  rw [fhFromBlockSize, readBits_of_le (by decide) (by decide) h, if_neg hc]; rfl

theorem fhFromRate_of_reserved (h : 4 ≤ s.rem) (hc : srTable cfg src = .reserved) :
    fhFromRate p cfg src cac ssc z2 s =
      .next (((s.advance 4).setFh { s.fh with sampleRateCode := src }).goto .srCode) := by
  rw [fhFromRate, readBits_of_le (by decide) (by decide) h, if_pos hc]; rfl

theorem fhFromRate_of_legal (h : 4 ≤ s.rem) (hc : srTable cfg src ≠ .reserved) :
    fhFromRate p cfg src cac ssc z2 s =
      fhFromChannels p cfg cac ssc z2 ((s.advance 4).setFh { s.fh with sampleRateCode := src }) := by
  rw [fhFromRate, readBits_of_le (by decide) (by decide) h, if_neg hc]; rfl

theorem fhFromChannels_of_reserved (h : 4 ≤ s.rem) (hc : caTable cfg cac = .reserved) :
    fhFromChannels p cfg cac ssc z2 s =
      .next (((s.advance 4).setFh { s.fh with channelAssignmentCode := cac }).goto .caCode) := by
  rw [fhFromChannels, readBits_of_le (by decide) (by decide) h, if_pos hc]; rfl

theorem fhFromChannels_of_legal (h : 4 ≤ s.rem) (hc : caTable cfg cac ≠ .reserved) :
    fhFromChannels p cfg cac ssc z2 s =
      fhFromSampleSize p cfg ssc z2 ((s.advance 4).setFh { s.fh with channelAssignmentCode := cac }) := by
  rw [fhFromChannels, readBits_of_le (by decide) (by decide) h, if_neg hc]; rfl

theorem fhFromSampleSize_of_reserved (h : 3 ≤ s.rem) (hc : ssTable cfg ssc = .reserved) :
    fhFromSampleSize p cfg ssc z2 s =
      .next (((s.advance 3).setFh { s.fh with sampleSizeCode := ssc }).goto .ssCode) := by
  rw [fhFromSampleSize, readBits_of_le (by decide) (by decide) h, if_pos hc]; rfl

theorem fhFromSampleSize_of_legal (h : 3 ≤ s.rem) (hc : ssTable cfg ssc ≠ .reserved) :
    fhFromSampleSize p cfg ssc z2 s = fhLastBit p z2 ((s.advance 3).setFh { s.fh with sampleSizeCode := ssc }) := by
  rw [fhFromSampleSize, readBits_of_le (by decide) (by decide) h, if_neg hc]; rfl

theorem fhLastBit_of_set (h : 1 ≤ s.rem) : fhLastBit p true s = fail (s.advance 1) .frameSyncLost (p + 3) :=
  readBits_of_le (by decide) (by decide) h

end

theorem State.rem_setFh_advance (s : State) (n : Nat) (fh : FrameHeader) : ((s.advance n).setFh fh).rem = s.rem - n :=
  s.rem_advance n

/-- Settles O17: `execFhWord_of_le`. -/
theorem frameWordAccepted : Obligations.FrameWordAccepted :=
  fun _ _ _ _ _ _ h hbs hsr hca hss => execFhWord_of_le h hbs hsr hca hss

/-- Settles O18: the word is followed up to the field that stops it. -/
theorem frameWordSyncLost : Obligations.FrameWordSyncLost := by
  refine fun sync z1 b bsc src cac ssc z2 s => ⟨fun h hs => ?sync, fun h hs hz => ?zero,
    fun h hs hz hbs hsr hca hss hz2 =>
    ?last, fun h => ?cut, fun hal h hs hz => ?cut16, fun hal h hs hz hbs hsr => ?cut24⟩ <;> rw [exec_fhWord]
  case sync => rw [execFhWord_of_sync h hs]; exact raises_fail_at rfl
  case zero => rw [hs, hz, execFhWord_of_zeroBit h]; exact raises_fail_at rfl
  case last =>
    rw [hs, hz, hz2, execFhWord_of_accepted (by omega), fhFromBlockSize_of_legal _ hbs, fhFromRate_of_legal _ hsr,
      fhFromChannels_of_legal _ hca, fhFromSampleSize_of_legal _ hss, fhLastBit_of_set]
    · exact raises_fail_at rfl
    all_goals simp only [State.rem_setFh_advance]; omega
  case cut => rw [execFhWord_of_lt h]; exact raises_fail_at rfl
  case cut16 =>
    rw [hs, hz, execFhWord_of_accepted (by omega), fhFromBlockSize, readBits_of_lt (by decide) (by decide)]
    · exact raises_fail_at (show (s.cur + 16) / 8 = s.cur / 8 + 2 by omega)
    · rw [State.rem_setFh_advance]; omega
  case cut24 =>
    rw [hs, hz, execFhWord_of_accepted (by omega), fhFromBlockSize_of_legal _ hbs, fhFromRate_of_legal _ hsr,
      fhFromChannels, readBits_of_lt (by decide) (by decide)]
    · exact raises_fail_at (show (s.cur + 16 + 4 + 4) / 8 = s.cur / 8 + 3 by omega)
    all_goals simp only [State.rem_setFh_advance]; omega

/-! ## The rows of the codes -/

theorem step_of_fetch {i : Instr} (hb : s.atBoundary = false) (h : fetch s = some i) : step s = exec i s := by
  rw [step_own (pendingAction_none_of_elem hb), runElement_of_fetch h]

theorem step_bsCode (he : s.elem = .bsCode) : step s = blockSizeRow s.fh.blockSizeCode s := by
  rw [step_of_fetch (by rw [State.atBoundary, he]) (fetch_bsCode he), exec_bsRow]

theorem step_srCode (he : s.elem = .srCode) : step s = sampleRateRow s.fh.sampleRateCode s := by
  rw [step_of_fetch (by rw [State.atBoundary, he]) (fetch_srCode he), exec_srRow]

theorem step_caCode (he : s.elem = .caCode) : step s = channelRow s.fh.channelAssignmentCode s := by
  rw [step_of_fetch (by rw [State.atBoundary, he]) (fetch_caCode he), exec_caRow]

theorem step_ssCode (he : s.elem = .ssCode) : step s = sampleSizeRow s.fh.sampleSizeCode s := by
  rw [step_of_fetch (by rw [State.atBoundary, he]) (fetch_ssCode he), exec_ssRow]

theorem blockSizeRow_of_reserved {c : BitVec 4} (h : bsTable s.params c = .reserved) :
    blockSizeRow c s = fail s .frameSyncLost (s.fh.start + 2) := by rw [blockSizeRow, h]

theorem blockSizeRow_of_literal {c : BitVec 4} {v : BitVec 17} (h : bsTable s.params c = .literal v) :
    blockSizeRow c s = .next { s with fh := { s.fh with blockSize := v }, elem := .srCode } := by rw [blockSizeRow, h]

theorem blockSizeRow_of_extra16 {c : BitVec 4} (h : bsTable s.params c = .extra16) :
    blockSizeRow c s = .next { s with elem := .xbs16 } := by rw [blockSizeRow, h]; rfl

theorem sampleRateRow_of_reserved {c : BitVec 4} (h : srTable s.params c = .reserved) :
    sampleRateRow c s = fail s .frameSyncLost (s.fh.start + 2) := by rw [sampleRateRow, h]

theorem sampleRateRow_of_fromStreamInfo {c : BitVec 4} (h : srTable s.params c = .fromStreamInfo) :
    sampleRateRow c s = .next { s with fh := { s.fh with sampleRateHz := s.si.sampleRateHz }, elem := .caCode } := by
  rw [sampleRateRow, h]

theorem sampleRateRow_of_literal {c : BitVec 4} {v : BitVec 20} (h : srTable s.params c = .literal v) :
    sampleRateRow c s = .next { s with fh := { s.fh with sampleRateHz := v }, elem := .caCode } := by
  rw [sampleRateRow, h]

theorem sampleRateRow_of_extra8kHz {c : BitVec 4} (h : srTable s.params c = .extra8kHz) :
    sampleRateRow c s = .next { s with elem := .xsr8k } := by rw [sampleRateRow, h]; rfl

theorem sampleRateRow_of_extra16Hz {c : BitVec 4} (h : srTable s.params c = .extra16Hz) :
    sampleRateRow c s = .next { s with elem := .xsr16 } := by rw [sampleRateRow, h]; rfl

theorem sampleRateRow_of_extra16TensHz {c : BitVec 4} (h : srTable s.params c = .extra16TensHz) :
    sampleRateRow c s = .next { s with elem := .xsr16t } := by rw [sampleRateRow, h]; rfl

theorem channelRow_of_reserved {c : BitVec 4} (h : caTable s.params c = .reserved) :
    channelRow c s = fail s .frameSyncLost (s.fh.start + 3) := by rw [channelRow, h]

theorem channelRow_of_independent {c : BitVec 4} {v : BitVec 4} (h : caTable s.params c = .independent v) :
    channelRow c s = .next { s with fh := { s.fh with channelCount := v }, elem := .ssCode } := by rw [channelRow, h]

theorem channelRow_of_stereo {c : BitVec 4}
    (h : caTable s.params c = .leftSide ∨ caTable s.params c = .sideRight ∨ caTable s.params c = .midSide) :
    channelRow c s = .next { s with fh := { s.fh with channelCount := 2 }, elem := .ssCode } := by
  rcases h with h | h | h <;> rw [channelRow, h]

theorem sampleSizeRow_of_reserved {c : BitVec 3} (h : ssTable s.params c = .reserved) :
    sampleSizeRow c s = fail s .frameSyncLost (s.fh.start + 3) := by rw [sampleSizeRow, h]

theorem sampleSizeRow_of_fromStreamInfo {c : BitVec 3} (h : ssTable s.params c = .fromStreamInfo) :
    sampleSizeRow c s = .next { s with fh := { s.fh with sampleSize := s.si.bitsPerSample }, elem := .crc8 } := by
  rw [sampleSizeRow, h]

theorem sampleSizeRow_of_literal {c : BitVec 3} {v : BitVec 6} (h : ssTable s.params c = .literal v) :
    sampleSizeRow c s = .next { s with fh := { s.fh with sampleSize := v }, elem := .crc8 } := by rw [sampleSizeRow, h]

/-- `u` is `s` inside an element: nothing is written that a consumer may rely on. -/
structure Inside (s u : State) : Prop where
  out   : u.out = s.out := by rfl
  valid : u.siValid = s.siValid := by rfl
  mem   : u.mem = s.mem := by rfl
  len   : u.len = s.len := by rfl

theorem Inside.raises {e : Failure} {off : Nat} (h : Inside s u) : Raises (fail u e off) s e off :=
  raises_fail e off h.out h.valid h.mem h.len

theorem step_bsCode_raises (he : u.elem = .bsCode) (hc : bsTable u.params u.fh.blockSizeCode = .reserved)
    (hin : Inside s u) : Raises (step u) s .frameSyncLost (u.fh.start + 2) := by
  rw [step_bsCode he, blockSizeRow_of_reserved hc]; exact hin.raises

theorem step_srCode_raises (he : u.elem = .srCode) (hc : srTable u.params u.fh.sampleRateCode = .reserved)
    (hin : Inside s u) : Raises (step u) s .frameSyncLost (u.fh.start + 2) := by
  rw [step_srCode he, sampleRateRow_of_reserved hc]; exact hin.raises

theorem step_caCode_raises (he : u.elem = .caCode) (hc : caTable u.params u.fh.channelAssignmentCode = .reserved)
    (hin : Inside s u) : Raises (step u) s .frameSyncLost (u.fh.start + 3) := by
  rw [step_caCode he, channelRow_of_reserved hc]; exact hin.raises

theorem step_ssCode_raises (he : u.elem = .ssCode) (hc : ssTable u.params u.fh.sampleSizeCode = .reserved)
    (hin : Inside s u) : Raises (step u) s .frameSyncLost (u.fh.start + 3) := by
  rw [step_ssCode he, sampleSizeRow_of_reserved hc]; exact hin.raises

/-- Settles O19: the rows fail by their equations, and the word stops at the first reserved code, whose row is the next
step. -/
theorem reservedCodesRaiseAtOnce : Obligations.ReservedCodesRaiseAtOnce := by
  refine ⟨fun s p hp h => ?bs, fun s p hp h => ?sr, fun s p hp h => ?ca, fun s p hp h => ?ss,
    fun b bsc src cac ssc z2 s => ⟨fun h hbs => ?wordBs, fun h hbs hsr => ?wordSr, fun h hbs hsr hca => ?wordCa,
      fun h hbs hsr hca hss => ?wordSs⟩, by decide, by decide⟩
  case bs => rw [exec_of_mem_bsCodes s hp, blockSizeRow_of_reserved h]; exact raises_fail_self _ _
  case sr => rw [exec_of_mem_srCodes s hp, sampleRateRow_of_reserved h]; exact raises_fail_self _ _
  case ca => rw [exec_of_mem_caCodes s hp, channelRow_of_reserved h]; exact raises_fail_self _ _
  case ss => rw [exec_of_mem_ssCodes s hp, sampleSizeRow_of_reserved h]; exact raises_fail_self _ _
  case wordBs =>
    refine ⟨_, (execFhWord_of_accepted (by omega)).trans (fhFromBlockSize_of_reserved ?_ hbs), ?_⟩
    · rw [State.rem_setFh_advance]; omega
    · exact step_bsCode_raises rfl hbs {}
  case wordSr =>
    refine ⟨_, (execFhWord_of_accepted (by omega)).trans <| (fhFromBlockSize_of_legal ?_ hbs).trans <|
      fhFromRate_of_reserved ?_ hsr, ?row⟩
    case row => exact step_srCode_raises rfl hsr {}
    all_goals simp only [State.rem_setFh_advance]; omega
  case wordCa =>
    refine ⟨_, (execFhWord_of_accepted (by omega)).trans <| (fhFromBlockSize_of_legal ?_ hbs).trans <|
      (fhFromRate_of_legal ?_ hsr).trans <| fhFromChannels_of_reserved ?_ hca, ?row⟩
    case row => exact step_caCode_raises rfl hca {}
    all_goals simp only [State.rem_setFh_advance]; omega
  case wordSs =>
    refine ⟨_, (execFhWord_of_accepted (by omega)).trans <| (fhFromBlockSize_of_legal ?_ hbs).trans <|
      (fhFromRate_of_legal ?_ hsr).trans <| (fhFromChannels_of_legal ?_ hca).trans <|
      fhFromSampleSize_of_reserved ?_ hss, ?row⟩
    case row => exact step_ssCode_raises rfl hss {}
    all_goals simp only [State.rem_setFh_advance]; omega

/-! ## The tables and the escape fields -/

/-- Settles O20. -/
theorem literalBlockSizes : Obligations.LiteralBlockSizes :=
  ⟨fun s _ hp _ h => (exec_of_mem_bsCodes s hp).trans (blockSizeRow_of_literal h), by decide⟩

/-- Settles O24. -/
theorem literalSampleRates : Obligations.LiteralSampleRates :=
  ⟨fun s _ hp => ⟨fun h => (exec_of_mem_srCodes s hp).trans (sampleRateRow_of_fromStreamInfo h),
    fun _ h => (exec_of_mem_srCodes s hp).trans (sampleRateRow_of_literal h)⟩, by decide, by decide⟩

/-- Settles O25. -/
theorem channelCounts : Obligations.ChannelCounts :=
  ⟨fun s _ hp => ⟨fun _ h => (exec_of_mem_caCodes s hp).trans (channelRow_of_independent h),
    fun h => (exec_of_mem_caCodes s hp).trans (channelRow_of_stereo h)⟩, by decide, by decide, by decide, by decide⟩

/-- Settles O26. -/
theorem sampleSizes : Obligations.SampleSizes :=
  ⟨fun s _ hp => ⟨fun h => (exec_of_mem_ssCodes s hp).trans (sampleSizeRow_of_fromStreamInfo h),
    fun _ h => (exec_of_mem_ssCodes s hp).trans (sampleSizeRow_of_literal h)⟩, by decide, by decide⟩

theorem toNat_rateOfKHz (v : BitVec 8) : (rateOfKHz v).toNat = v.toNat * 1000 := by
  unfold rateOfKHz; bv_omega

theorem toNat_rateOfHz (v : BitVec 16) : (rateOfHz v).toNat = v.toNat := by
  unfold rateOfHz; bv_omega

theorem toNat_rateOfTensHz (v : BitVec 16) : (rateOfTensHz v).toNat = v.toNat * 10 := by
  unfold rateOfTensHz; bv_omega

theorem execXbs16_of_le (v : BitVec 16) (h : 16 ≤ s.rem) :
    execXbs16 v s = .next { s with
      cur := s.cur + 16, fh := { s.fh with extendedBlockSize := v, blockSize := blockSizeOf16 v }, elem := .srCode } :=
  readBits_of_le (by decide) (by decide) h

theorem execXsr8k_of_le (v : BitVec 8) (h : 8 ≤ s.rem) :
    execXsr8k v s = .next { s with
      cur := s.cur + 8
      fh := { s.fh with extendedSampleRate := BitVec.ofNat 16 v.toNat, sampleRateHz := rateOfKHz v }
      elem := .caCode } := by
  rw [execXsr8k, readBits_of_le (by decide) (by decide) h, BitVec.ofNat_toNat]; rfl

theorem execXsr16_of_le (v : BitVec 16) (h : 16 ≤ s.rem) :
    execXsr16 v s = .next { s with
      cur := s.cur + 16, fh := { s.fh with extendedSampleRate := v, sampleRateHz := rateOfHz v }, elem := .caCode } :=
  readBits_of_le (by decide) (by decide) h

theorem execXsr16t_of_le (v : BitVec 16) (h : 16 ≤ s.rem) :
    execXsr16t v s = .next { s with
      cur := s.cur + 16, fh := { s.fh with extendedSampleRate := v, sampleRateHz := rateOfTensHz v }
      elem := .caCode } := readBits_of_le (by decide) (by decide) h

theorem execXbs16_of_lt (v : BitVec 16) (h : s.rem < 16) : execXbs16 v s = fail s .outOfData s.off :=
  readBits_of_lt (by decide) (by decide) h

theorem execXsr8k_of_lt (v : BitVec 8) (h : s.rem < 8) : execXsr8k v s = fail s .outOfData s.off :=
  readBits_of_lt (by decide) (by decide) h

theorem execXsr16_of_lt (v : BitVec 16) (h : s.rem < 16) : execXsr16 v s = fail s .outOfData s.off :=
  readBits_of_lt (by decide) (by decide) h

theorem execXsr16t_of_lt (v : BitVec 16) (h : s.rem < 16) : execXsr16t v s = fail s .outOfData s.off :=
  readBits_of_lt (by decide) (by decide) h

theorem raises_of_eq_fail {r : Res} {e : Failure} {off : Nat} (h : r = fail s e off) : Raises r s e off :=
  h ▸ raises_fail_self e off

/-- Settles O22. -/
theorem extraBlockSize16AndRateInKHz : Obligations.ExtraBlockSize16AndRateInKHz :=
  ⟨fun s => ⟨fun _ hp h => (exec_of_mem_bsCodes s hp).trans (blockSizeRow_of_extra16 h),
      fun _ hp h => (exec_of_mem_srCodes s hp).trans (sampleRateRow_of_extra8kHz h)⟩, by decide, by decide,
    fun v _ => ⟨fun h => ⟨_, toNat_blockSizeOf16 v, execXbs16_of_le v h⟩,
      fun h => raises_of_eq_fail (execXbs16_of_lt v h)⟩,
    fun v _ => ⟨fun h => ⟨_, toNat_rateOfKHz v, execXsr8k_of_le v h⟩,
      fun h => raises_of_eq_fail (execXsr8k_of_lt v h)⟩⟩

/-- Settles O23. -/
theorem sampleRateExtra16 : Obligations.SampleRateExtra16 :=
  ⟨fun s _ hp => ⟨fun h => (exec_of_mem_srCodes s hp).trans (sampleRateRow_of_extra16Hz h),
      fun h => (exec_of_mem_srCodes s hp).trans (sampleRateRow_of_extra16TensHz h)⟩, by decide, by decide,
    fun v _ => ⟨fun h => ⟨_, toNat_rateOfHz v, execXsr16_of_le v h⟩,
      fun h => ⟨_, toNat_rateOfTensHz v, execXsr16t_of_le v h⟩, fun h =>
      ⟨raises_of_eq_fail (execXsr16_of_lt v h), raises_of_eq_fail (execXsr16t_of_lt v h)⟩⟩⟩

/-! ## From the block-size code to the CRC-8 -/

theorem step_xbs8 (he : s.elem = .xbs8) : ∃ v, step s = execXbs8 v s :=
  ⟨_, step_of_fetch (by rw [State.atBoundary, he])
    (by rw [fetch_eq, he]; rfl : fetch s = some (.xbs8 (getField 8 s.window).1))⟩

theorem step_xbs16 (he : s.elem = .xbs16) : ∃ v, step s = execXbs16 v s :=
  ⟨_, step_of_fetch (by rw [State.atBoundary, he])
    (by rw [fetch_eq, he]; rfl : fetch s = some (.xbs16 (getField 16 s.window).1))⟩

theorem step_xsr8k (he : s.elem = .xsr8k) : ∃ v, step s = execXsr8k v s :=
  ⟨_, step_of_fetch (by rw [State.atBoundary, he])
    (by rw [fetch_eq, he]; rfl : fetch s = some (.xsr8k (getField 8 s.window).1))⟩

theorem step_xsr16 (he : s.elem = .xsr16) : ∃ v, step s = execXsr16 v s :=
  ⟨_, step_of_fetch (by rw [State.atBoundary, he])
    (by rw [fetch_eq, he]; rfl : fetch s = some (.xsr16 (getField 16 s.window).1))⟩

theorem step_xsr16t (he : s.elem = .xsr16t) : ∃ v, step s = execXsr16t v s :=
  ⟨_, step_of_fetch (by rw [State.atBoundary, he])
    (by rw [fetch_eq, he]; rfl : fetch s = some (.xsr16t (getField 16 s.window).1))⟩

/-- The registers that the way to the CRC-8 still needs, or must not touch. -/
structure FhKept (a b : FrameHeader) : Prop where
  start : b.start = a.start := by rfl
  index : b.frameOrSampleIndex = a.frameOrSampleIndex := by rfl
  rate  : b.sampleRateCode = a.sampleRateCode := by rfl
  chans : b.channelAssignmentCode = a.channelAssignmentCode := by rfl
  size  : b.sampleSizeCode = a.sampleSizeCode := by rfl

theorem FhKept.trans {a b c : FrameHeader} (h : FhKept a b) (h' : FhKept b c) : FhKept a c :=
  ⟨h'.start.trans h.start, h'.index.trans h.index, h'.rate.trans h.rate, h'.chans.trans h.chans, h'.size.trans h.size⟩

/-- In at most `m` steps the framer comes to the element `e`, `k` bits on, with nothing but `FH` written. -/
def ComesTo (s : State) (m k : Nat) (e : Elem) : Prop :=
  ∃ n fh, n ≤ m ∧ FhKept s.fh fh ∧ Host.Core.run core n s = .next { s with cur := s.cur + k, fh := fh, elem := e }

theorem ComesTo.one {k : Nat} {e : Elem} {fh : FrameHeader} (hk : FhKept s.fh fh)
    (h : step s = .next { s with cur := s.cur + k, fh := fh, elem := e }) : ComesTo s 1 k e :=
  ⟨1, fh, le_rfl, hk, run_succ h⟩

theorem ComesTo.trans {m m' k k' : Nat} {e e' : Elem} (h : ComesTo s m k e)
    (h' : ∀ fh, FhKept s.fh fh → ComesTo { s with cur := s.cur + k, fh := fh, elem := e } m' k' e') :
    ComesTo s (m + m') (k + k') e' := by
  obtain ⟨n, fh, hn, hkept, hrun⟩ := h
  obtain ⟨n', fh', hn', hkept', hrun'⟩ := h' fh hkept
  refine ⟨n + n', fh', by omega, hkept.trans hkept', ?_⟩
  rw [run_add hrun, hrun', ← Nat.add_assoc]

theorem ComesTo.mono {m m' k : Nat} {e : Elem} (h : ComesTo s m k e) (hm : m ≤ m') : ComesTo s m' k e :=
  have ⟨n, fh, hn, hkept, hrun⟩ := h
  ⟨n, fh, hn.trans hm, hkept, hrun⟩

/-- The bytes of the escape field of a block-size class. -/
def blockSizeBytes (c : BlockSizeClass) : Nat := if c = .extra8 then 1 else if c = .extra16 then 2 else 0

/-- The bytes of the escape field of a sample-rate class. -/
def sampleRateBytes (c : SampleRateClass) : Nat :=
  if c = .extra8kHz then 1 else if c = .extra16Hz ∨ c = .extra16TensHz then 2 else 0

theorem comesTo_srCode {c : BlockSizeClass} (he : s.elem = .bsCode) (h : bsTable s.params s.fh.blockSizeCode = c)
    (hc : c ≠ .reserved) (hrem : 8 * blockSizeBytes c ≤ s.rem) : ComesTo s 2 (8 * blockSizeBytes c) .srCode := by
  have hstep := step_bsCode he
  cases c with
  | reserved => exact absurd rfl hc
  | literal v => exact (ComesTo.one (k := 0) {} (hstep.trans (blockSizeRow_of_literal h))).mono one_le_two
  | extra8 =>
    refine (ComesTo.one (k := 0) {} (hstep.trans (blockSizeRow_of_extra8 h))).trans (m' := 1) (k' := 8)
      fun fh _ => ?_
    obtain ⟨v, hv⟩ := step_xbs8 (s := { s with cur := s.cur + 0, fh := fh, elem := .xbs8 }) rfl
    exact .one {} (hv.trans (execXbs8_of_le v hrem))
  | extra16 =>
    refine (ComesTo.one (k := 0) {} (hstep.trans (blockSizeRow_of_extra16 h))).trans (m' := 1) (k' := 16) fun fh _ => ?_
    obtain ⟨v, hv⟩ := step_xbs16 (s := { s with cur := s.cur + 0, fh := fh, elem := .xbs16 }) rfl
    exact .one {} (hv.trans (execXbs16_of_le v hrem))

theorem comesTo_caCode {c : SampleRateClass} (he : s.elem = .srCode) (h : srTable s.params s.fh.sampleRateCode = c)
    (hc : c ≠ .reserved) (hrem : 8 * sampleRateBytes c ≤ s.rem) : ComesTo s 2 (8 * sampleRateBytes c) .caCode := by
  have hstep := step_srCode he
  cases c with
  | reserved => exact absurd rfl hc
  | literal v => exact (ComesTo.one (k := 0) {} (hstep.trans (sampleRateRow_of_literal h))).mono one_le_two
  | fromStreamInfo =>
    exact (ComesTo.one (k := 0) {} (hstep.trans (sampleRateRow_of_fromStreamInfo h))).mono one_le_two
  | extra8kHz =>
    refine (ComesTo.one (k := 0) {} (hstep.trans (sampleRateRow_of_extra8kHz h))).trans (m' := 1) (k' := 8)
      fun fh _ => ?_
    obtain ⟨v, hv⟩ := step_xsr8k (s := { s with cur := s.cur + 0, fh := fh, elem := .xsr8k }) rfl
    exact .one {} (hv.trans (execXsr8k_of_le v hrem))
  | extra16Hz =>
    refine (ComesTo.one (k := 0) {} (hstep.trans (sampleRateRow_of_extra16Hz h))).trans (m' := 1) (k' := 16)
      fun fh _ => ?_
    obtain ⟨v, hv⟩ := step_xsr16 (s := { s with cur := s.cur + 0, fh := fh, elem := .xsr16 }) rfl
    exact .one {} (hv.trans (execXsr16_of_le v hrem))
  | extra16TensHz =>
    refine (ComesTo.one (k := 0) {} (hstep.trans (sampleRateRow_of_extra16TensHz h))).trans (m' := 1) (k' := 16)
      fun fh _ => ?_
    obtain ⟨v, hv⟩ := step_xsr16t (s := { s with cur := s.cur + 0, fh := fh, elem := .xsr16t }) rfl
    exact .one {} (hv.trans (execXsr16t_of_le v hrem))

theorem comesTo_ssCode (he : s.elem = .caCode) (hc : caTable s.params s.fh.channelAssignmentCode ≠ .reserved) :
    ComesTo s 1 0 .ssCode := by
  have hstep := step_caCode he
  cases h : caTable s.params s.fh.channelAssignmentCode with
  | reserved => exact absurd h hc
  | independent v => exact .one {} (hstep.trans (channelRow_of_independent h))
  | leftSide => exact .one {} (hstep.trans (channelRow_of_stereo (.inl h)))
  | sideRight => exact .one {} (hstep.trans (channelRow_of_stereo (.inr (.inl h))))
  | midSide => exact .one {} (hstep.trans (channelRow_of_stereo (.inr (.inr h))))

theorem comesTo_crc8 (he : s.elem = .ssCode) (hc : ssTable s.params s.fh.sampleSizeCode ≠ .reserved) :
    ComesTo s 1 0 .crc8 := by
  have hstep := step_ssCode he
  cases h : ssTable s.params s.fh.sampleSizeCode with
  | reserved => exact absurd h hc
  | fromStreamInfo => exact .one {} (hstep.trans (sampleSizeRow_of_fromStreamInfo h))
  | literal v => exact .one {} (hstep.trans (sampleSizeRow_of_literal h))

/-- Settles O27: the four rows and their escape fields, one after another. -/
theorem escapesAddTheirBytes : Obligations.EscapesAddTheirBytes := by
  intro s he bs sr hbs hsr hca hss xb xs hrem
  have hsum : 8 * (xb + xs) = 8 * xb + (8 * xs + (0 + 0)) := Nat.mul_add 8 xb xs
  have way : ComesTo s (2 + (2 + (1 + 1))) (8 * xb + (8 * xs + (0 + 0))) .crc8 := by
    refine ComesTo.trans (comesTo_srCode he rfl hbs ?_) fun fh1 h1 => ?_
    · exact show 8 * xb ≤ s.rem by omega
    refine ComesTo.trans (comesTo_caCode ?_ (congrArg (srTable s.params) h1.rate) hsr ?_) fun fh2 h2 => ?_
    · rfl
    · exact show 8 * xs ≤ 8 * s.len - (s.cur + 8 * xb) by unfold State.rem at hrem; omega
    refine ComesTo.trans (comesTo_ssCode ?_ fun h => hca ?_) fun fh3 h3 => comesTo_crc8 ?_ fun h => hss ?_
    · rfl
    · exact (congrArg (caTable s.params) (h1.trans h2).chans).symm.trans h
    · rfl
    · exact (congrArg (ssTable s.params) ((h1.trans h2).trans h3).size).symm.trans h
  obtain ⟨n, fh, hn, hk, hrun⟩ := way
  exact ⟨n, fh, hn, hk.start, hk.index, by rw [hrun, hsum]⟩

end Sys2Proof.Machine
end

section
/-!
The index (spec/44): its bytes one by one, and the value of its data bits.
-/

namespace Sys2Proof.Machine

variable {s t u : State} {n : Nat}

/-! ## The bytes of the index -/

theorem execIdx1_of_le (v : BitVec 7) (h : 8 ≤ s.rem) :
    execIdx1 v s = .next { s with
      cur := s.cur + 8
      fh := { s.fh with frameOrSampleIndex := BitVec.ofNat 36 v.toNat, indexBytes := 1 }
      elem := .bsCode } := by
  rw [execIdx1, readBits_of_le (by decide) (by decide) h, BitVec.ofNat_toNat]; rfl

theorem execIdx1_of_lt (v : BitVec 7) (h : s.rem < 8) : execIdx1 v s = fail s .outOfData s.off :=
  readBits_of_lt (by decide) (by decide) h

/-- Settles O29. -/
theorem indexOneByte : Obligations.IndexOneByte := fun v _ =>
  ⟨execIdx1_of_le v, fun h => raises_of_eq_fail (execIdx1_of_lt v h)⟩

theorem indexFirst_of_le {m : BitVec 3} (v : BitVec 36) (h : 8 ≤ s.rem) :
    indexFirst m v s = .next { s with
      cur := s.cur + 8, idxAcc := v, idxLeft := m.toNat - 1, idxLen := m, elem := .idxCont } :=
  readBits_of_le (by decide) (by decide) h

theorem indexFirst_of_lt {m : BitVec 3} (v : BitVec 36) (h : s.rem < 8) :
    indexFirst m v s = fail s .outOfData s.off := readBits_of_lt (by decide) (by decide) h

theorem indexBad_of_le (h : 8 ≤ s.rem) : indexBad s = fail (s.advance 8) .malformedIndex s.off :=
  readBits_of_le (by decide) (by decide) h

theorem indexBad_of_lt (h : s.rem < 8) : indexBad s = fail s .outOfData s.off :=
  readBits_of_lt (by decide) (by decide) h

theorem indexBad_raises (h : 8 ≤ s.rem) : Raises (indexBad s) s .malformedIndex (s.cur / 8) := by
  rw [indexBad_of_le h]; exact raises_fail_at rfl

/-- A continuation byte that is not the last. -/
theorem execIdxCont_of_more (d : BitVec 6) (h : 8 ≤ s.rem) (hl : 2 ≤ s.idxLeft) :
    execIdxCont 0b10 d s = .next { s with
      cur := s.cur + 8, idxAcc := indexAppend s.idxAcc d, idxLeft := s.idxLeft - 1, elem := .idxCont } := by
  have hne : ¬(s.advance 8).idxLeft - 1 = 0 := show ¬s.idxLeft - 1 = 0 by omega
  rw [execIdxCont, readBits_of_le (by decide) (by decide) h, if_neg (not_not_intro rfl)]
  exact if_neg hne

/-- The last continuation byte. -/
theorem execIdxCont_of_last (d : BitVec 6) (h : 8 ≤ s.rem) (hl : s.idxLeft = 1) :
    execIdxCont 0b10 d s = .next { s with
      cur := s.cur + 8, idxAcc := indexAppend s.idxAcc d, idxLeft := 0
      fh := { s.fh with frameOrSampleIndex := indexAppend s.idxAcc d, indexBytes := s.idxLen }
      elem := .bsCode } := by
  have hz : (s.advance 8).idxLeft - 1 = 0 := show s.idxLeft - 1 = 0 by omega
  rw [execIdxCont, readBits_of_le (by decide) (by decide) h, if_neg (not_not_intro rfl)]
  refine (if_pos hz).trans ?_
  rw [hz]; rfl

theorem execIdxCont_of_bad {top : BitVec 2} (d : BitVec 6) (h : 8 ≤ s.rem) (ht : top ≠ 0b10) :
    execIdxCont top d s = fail (s.advance 8) .malformedIndex s.off := by
  rw [execIdxCont, readBits_of_le (by decide) (by decide) h, if_pos ht]

theorem execIdxCont_of_lt (top : BitVec 2) (d : BitVec 6) (h : s.rem < 8) :
    execIdxCont top d s = fail s .outOfData s.off := readBits_of_lt (by decide) (by decide) h

theorem execIdxCont_raises {top : BitVec 2} (d : BitVec 6) (h : 8 ≤ s.rem) (ht : top ≠ 0b10) :
    Raises (execIdxCont top d s) s .malformedIndex (s.cur / 8) := by
  rw [execIdxCont_of_bad d h ht]; exact raises_fail_at rfl

theorem indexAppend_eq (v : BitVec 36) (d : BitVec 6) : indexAppend v d = v <<< 6 ||| BitVec.ofNat 36 d.toNat := by
  rw [indexAppend, BitVec.ofNat_toNat]

/-- A first byte that is not there. -/
theorem exec_idxForm_raises_of_lt (b : BitVec 8) (h : s.rem < 8) :
    Raises (exec (idxForm b) s) s .outOfData (s.cur / 8) :=
  exec_idxForm_elim (P := (Raises · s .outOfData (s.cur / 8))) b (fun v => raises_of_eq_fail (execIdx1_of_lt v h))
    (fun _ v _ => raises_of_eq_fail (indexFirst_of_lt v h)) (raises_of_eq_fail (indexBad_of_lt h))

theorem exec_idxCont_raises_of_lt (top : BitVec 2) (d : BitVec 6) (h : s.rem < 8) :
    Raises (exec (.idxCont top d) s) s .outOfData (s.cur / 8) :=
  raises_of_eq_fail (execIdxCont_of_lt top d h)

/-- Settles O30: each form by its equation, and a missing byte of any form. -/
theorem indexBytes : Obligations.IndexBytes := by
  refine ⟨fun s h => ⟨fun v => ?_, fun v => ?_, fun v => ?_, fun v => ?_, fun v => ?_, indexFirst_of_le 0 h,
    fun _ => indexBad_raises h, indexBad_raises h, fun d hl => ?more, fun d hl => ?last, fun top d ht => ?bad⟩,
    fun s h i hi => ?cut⟩
  case more => rw [← indexAppend_eq]; exact execIdxCont_of_more d h hl
  case last => rw [← indexAppend_eq]; exact execIdxCont_of_last d h hl
  case bad => exact execIdxCont_raises d h ht
  case cut =>
    rcases hi with hi | hi
    · obtain ⟨b, rfl⟩ := exists_idxForm hi
      exact exec_idxForm_raises_of_lt b h
    · obtain ⟨top, d, rfl⟩ : ∃ top d, i = .idxCont top d := by cases i <;> simp_all [Instr.elem]
      exact exec_idxCont_raises_of_lt top d h
  all_goals rw [BitVec.ofNat_toNat]; exact indexFirst_of_le _ h

/-! ## The value of the data bits -/

/-- The data bits of the first byte of an index of `n` bytes, and of `j` bytes after it. -/
def indexBitsTo (n j : Nat) (bs : Bits) : Bits :=
  (bs.take 8).drop (n + 1) ++ (List.range j).flatMap fun i => ((bs.drop (8 * (i + 1))).take 8).drop 2

theorem indexBitsTo_succ (n j : Nat) (bs : Bits) :
    indexBitsTo n (j + 1) bs = indexBitsTo n j bs ++ ((bs.drop (8 * (j + 1))).take 8).drop 2 := by
  simp [indexBitsTo, List.range_succ, List.append_assoc]

/-- Byte `j` of a run of stream bits. -/
theorem State.streamBits_drop_take {j m : Nat} (s : State) (h : j + 1 ≤ m) :
    ((s.streamBits (8 * m)).drop (8 * j)).take 8 = (s.advance (8 * j)).streamBits 8 := by
  have hm : 8 * m = 8 * j + (8 + (8 * m - 8 * (j + 1))) := by omega
  rw [hm, State.streamBits_add, List.drop_left' (s.streamBits_length _), State.streamBits_add,
    List.take_left' (State.streamBits_length _ _)]

/-- Appending six data bits to the value read so far. -/
theorem indexAppend_ofNat (x : Nat) (d : BitVec 6) :
    indexAppend (BitVec.ofNat 36 x) d = BitVec.ofNat 36 (x * 2 ^ 6 + d.toNat) := by
  apply BitVec.eq_of_toNat_eq
  have hd := d.isLt
  simp only [indexAppend, BitVec.toNat_or, BitVec.toNat_shiftLeft, BitVec.toNat_ofNat, BitVec.toNat_setWidth]
  rw [Nat.mod_eq_of_lt (a := d.toNat) (by omega), Nat.shiftLeft_eq]
  have : x % 2 ^ 36 * 2 ^ 6 % 2 ^ 36 = 2 ^ 6 * (x % 2 ^ 30) := by omega
  rw [this, ← Nat.two_pow_add_eq_or_of_lt hd]
  omega

/-- The first byte of an index of `n` bytes, 2 to 7, gives its last `7 - n` bits. -/
theorem exec_idxForm_of_lead1 {b : BitVec 8} (hn : 2 ≤ n) (hn' : n ≤ 7) (h : lead1 (putField b) = n) :
    exec (idxForm b) s =
      indexFirst (BitVec.ofNat 3 n) (BitVec.ofNat 36 (bitsVal ((putField b).drop (n + 1)))) s := by
  have value : ∀ b : BitVec 8, ∀ k ≤ 5, (b.setWidth k).setWidth 36 =
      BitVec.ofNat 36 (bitsVal ((putField b).drop (8 - k))) := by
    decide
  have hv := value b (7 - n) (by omega)
  obtain rfl | hlt := Nat.eq_or_lt_of_le hn'
  · rw [idxForm, h, ← hv]
    exact congrArg (indexFirst 7 · s) (show (0 : BitVec 36) = (b.setWidth 0).setWidth 36 by
      rw [Subsingleton.elim (b.setWidth 0) 0]; rfl)
  · interval_cases n <;> rw [idxForm, h, ← hv] <;> rfl

/-- The two fields of a continuation byte. -/
theorem fetch_idxCont (he : s.elem = .idxCont) :
    fetch s = some (.idxCont (getField 2 (s.streamBits 8)).1 (BitVec.ofNat 6 (bitsVal ((s.streamBits 8).drop 2)))) := by
  have hlen : ((s.streamBits 8).drop 2).length = 6 := by rw [List.length_drop, State.streamBits_length]
  have hw : s.window = s.streamBits 8 := by rw [State.window, he]; rfl
  rw [fetch_eq, he, hw]
  simp [decodeWhole, decodeIdxCont, getField, Except.toOption, List.take_of_length_le hlen.le]

theorem step_idxCont (he : s.elem = .idxCont) (h1 : s.bitAt s.cur = true) (h0 : s.bitAt (s.cur + 1) = false) :
    step s = execIdxCont 0b10 (BitVec.ofNat 6 (bitsVal ((s.streamBits 8).drop 2))) s := by
  have htop : (getField 2 (s.streamBits 8)).1 = 0b10 := by
    simp [getField, State.streamBits, List.range_succ, h1, h0, bitsVal]
  rw [step_of_fetch (by rw [State.atBoundary, he]) (fetch_idxCont he), htop]
  rfl

theorem step_idx (he : s.elem = .idx) : step s = exec (idxForm (getField 8 (s.streamBits 8)).1) s :=
  step_of_fetch (by rw [State.atBoundary, he]) (by rw [fetch_eq, he, State.window, he]; rfl)

/-- A continuation byte appends its six data bits. -/
theorem indexAppend_bits (bs : Bits) {cs : Bits} (hc : cs.length = 6) :
    indexAppend (BitVec.ofNat 36 (bitsVal bs)) (BitVec.ofNat 6 (bitsVal cs)) = BitVec.ofNat 36 (bitsVal (bs ++ cs)) := by
  have hlt : bitsVal cs < 2 ^ 6 := hc ▸ bitsVal_lt cs
  rw [indexAppend_ofNat, BitVec.toNat_ofNat, Nat.mod_eq_of_lt hlt, bitsVal_append, hc]

/-- The state after the first byte and `j` more of an index of `n` bytes. -/
def State.inIndex (s : State) (n j : Nat) : State :=
  { s with
    cur := s.cur + 8 * (j + 1), idxAcc := BitVec.ofNat 36 (bitsVal (indexBitsTo n j (s.streamBits (8 * n))))
    idxLeft := n - 1 - j, idxLen := BitVec.ofNat 3 n, elem := .idxCont }

theorem putField_streamBits (s : State) : putField (getField 8 (s.streamBits 8)).1 = s.streamBits 8 := by
  have hsplit := putField_getField (s.streamBits_length 8).ge
  have hnil : (getField 8 (s.streamBits 8)).2 = [] := List.drop_of_length_le (s.streamBits_length 8).le
  rwa [hnil, List.append_nil] at hsplit

theorem step_first (he : s.elem = .idx) (hn : 2 ≤ n) (hn' : n ≤ 7) (hrem : 8 * n ≤ s.rem)
    (hlead : lead1 (s.streamBits 8) = n) : step s = .next (s.inIndex n 0) := by
  have hlead : lead1 (putField (getField 8 (s.streamBits 8)).1) = n := by rw [putField_streamBits, hlead]
  have hbits : indexBitsTo n 0 (s.streamBits (8 * n)) = (s.streamBits 8).drop (n + 1) := by
    have hbyte : (s.streamBits (8 * n)).take 8 = s.streamBits 8 := s.streamBits_drop_take (j := 0) (by omega)
    simp [indexBitsTo, hbyte]
  rw [step_idx he, exec_idxForm_of_lead1 hn hn' hlead, putField_streamBits, indexFirst_of_le _ (by omega)]
  have hnat : (BitVec.ofNat 3 n).toNat = n := by rw [BitVec.toNat_ofNat]; omega
  rw [State.inIndex, hbits, hnat]
  rfl

/-- A continuation byte, from the state before it. -/
theorem step_inIndex {j : Nat} (hj : j + 1 < n)
    (hcont : s.bitAt (s.cur + 8 * (j + 1)) = true ∧ s.bitAt (s.cur + 8 * (j + 1) + 1) = false) :
    ∃ d, indexAppend (s.inIndex n j).idxAcc d =
        BitVec.ofNat 36 (bitsVal (indexBitsTo n (j + 1) (s.streamBits (8 * n)))) ∧
      step (s.inIndex n j) = execIdxCont 0b10 d (s.inIndex n j) := by
  refine ⟨_, ?_, step_idxCont rfl hcont.1 hcont.2⟩
  have hbyte : (s.inIndex n j).streamBits 8 = ((s.streamBits (8 * n)).drop (8 * (j + 1))).take 8 :=
    (s.streamBits_drop_take (by omega)).symm
  rw [hbyte, indexBitsTo_succ]
  refine indexAppend_bits _ ?_
  rw [← hbyte, List.length_drop, State.streamBits_length]

theorem State.rem_inIndex (s : State) (n j : Nat) : (s.inIndex n j).rem = s.rem - 8 * (j + 1) := s.rem_advance _

theorem run_inIndex (he : s.elem = .idx) (hn : 2 ≤ n) (hn' : n ≤ 7) (hrem : 8 * n ≤ s.rem)
    (hlead : lead1 (s.streamBits 8) = n)
    (hcont : ∀ i, 1 ≤ i → i < n → s.bitAt (s.cur + 8 * i) = true ∧ s.bitAt (s.cur + 8 * i + 1) = false)
    (j : Nat) (hj : j + 1 < n) : Host.Core.run core (j + 1) s = .next (s.inIndex n j) := by
  induction j with
  | zero => exact run_succ (step_first he hn hn' hrem hlead)
  | succ j ih =>
    obtain ⟨d, hd, hstep⟩ := step_inIndex (n := n) (j := j) (by omega) (hcont (j + 1) (by omega) (by omega))
    have hleft : 2 ≤ (s.inIndex n j).idxLeft := show 2 ≤ n - 1 - j by omega
    rw [execIdxCont_of_more d (by rw [State.rem_inIndex]; omega) hleft, hd] at hstep
    rw [run_add (ih (by omega)), run_succ hstep, run_zero]
    rfl

/-- Settles O31: the bytes of the index one by one, the last of which writes the registers. -/
theorem indexDecodesItsDataBits : Obligations.IndexDecodesItsDataBits := by
  intro s n he _ hn hn' hrem hlead hcont
  obtain ⟨j, rfl⟩ : ∃ j, n = j + 2 := ⟨n - 2, by omega⟩
  obtain ⟨d, hd, hstep⟩ := step_inIndex (n := j + 2) (j := j) (by omega) (hcont (j + 1) (by omega) (by omega))
  have hleft : (s.inIndex (j + 2) j).idxLeft = 1 := show j + 2 - 1 - j = 1 by omega
  rw [execIdxCont_of_last d (by rw [State.rem_inIndex]; omega) hleft, hd] at hstep
  have hrun := run_add (n := 1) (run_inIndex he hn hn' hrem hlead hcont j (by omega))
  rw [run_succ hstep, run_zero] at hrun
  exact ⟨_, 0, BitVec.ofNat 3 (j + 2), hrun⟩

end Sys2Proof.Machine
end

section
/-!
The subframes (spec/46) and the footer (spec/47): the refused types, the width, the samples, the padding and the record
of a frame.
-/

namespace Sys2Proof.Machine

variable {s t u : State} {f : Subframe} {n : Nat} {z w : Bool} {b : BitVec 6}

/-! ## The refused types -/

/-- The zero bit is there, and set. -/
theorem subframeHeader_of_zeroBit (hf : s.sf[s.ch.toNat]? = some f) (h : 1 ≤ s.rem) :
    subframeHeader true b w s = fail (s.advance 1) .reservedSubframeType s.off := by
  rw [subframeHeader, withSubframe_of_some hf, readBits_of_le (by decide) (by decide) h]
  rfl

/-- The type code is there. -/
theorem subframeHeader_of_type (hf : s.sf[s.ch.toNat]? = some f) (h : 7 ≤ s.rem) :
    (classify b = .reserved → subframeHeader false b w s =
      fail ((s.advance 7).setSubframe { f with subframeType := classify b }) .reservedSubframeType (s.advance 1).off) ∧
    (classify b ≠ .reserved → classify b ≠ .verbatim → subframeHeader false b w s =
      fail ((s.advance 7).setSubframe { f with subframeType := classify b }) .unsupportedSubframeType
        (s.advance 1).off) := by
  have h6 : 6 ≤ (s.advance 1).rem := by rw [State.rem_advance]; omega
  rw [subframeHeader, withSubframe_of_some hf, readBits_of_le (by decide) (by decide) (by omega)]
  simp only [Bool.false_eq_true, if_false]
  rw [readBits_of_le (by decide) (by decide) h6, State.advance_advance]
  cases classify b <;> simp

theorem subframeHeader_raises_reserved (hf : s.sf[s.ch.toNat]? = some f) (h : 7 ≤ s.rem)
    (hb : classify b = .reserved) : Raises (subframeHeader false b w s) s .reservedSubframeType ((s.cur + 1) / 8) := by
  rw [(subframeHeader_of_type hf h).1 hb]; exact raises_fail_at rfl

theorem subframeHeader_raises_unsupported (hf : s.sf[s.ch.toNat]? = some f) (h : 7 ≤ s.rem)
    (hb : classify b ≠ .reserved ∧ classify b ≠ .verbatim) :
    Raises (subframeHeader false b w s) s .unsupportedSubframeType ((s.cur + 1) / 8) := by
  rw [(subframeHeader_of_type hf h).2 hb.1 hb.2]; exact raises_fail_at rfl

theorem classify_fixed : ∀ o : BitVec 3, classify (0b001#3 ++ o) ≠ .reserved ∧ classify (0b001#3 ++ o) ≠ .verbatim := by
  decide

theorem classify_lpcForm : ∀ o : BitVec 5, classify (0b1#1 ++ o) ≠ .reserved ∧ classify (0b1#1 ++ o) ≠ .verbatim := by
  decide

theorem classify_rsvd00001x : ∀ x : BitVec 1, classify (0b00001#5 ++ x) = .reserved := by decide

theorem classify_rsvd0001xx : ∀ x : BitVec 2, classify (0b0001#4 ++ x) = .reserved := by decide

theorem classify_rsvd01xxxx : ∀ x : BitVec 4, classify (0b01#2 ++ x) = .reserved := by decide

theorem exists_subframe (h : s.ch.toNat < 8) : ∃ f, s.sf[s.ch.toNat]? = some f := ⟨_, Vector.getElem?_eq_getElem h⟩

/-- A header whose zero bit is set is the form `SFH.RSVD_Z`. -/
theorem sfhForm_true (b : BitVec 6) (w : Bool) : sfhForm true b w = .sfhRsvdZ b w := rfl

/-- Settles O33. -/
theorem refusedSubframes : Obligations.RefusedSubframes := by
  intro s w hch
  obtain ⟨f, hf⟩ := exists_subframe hch
  refine ⟨fun h => ?types, fun h t => ?zero, fun h i hi => ?cut, fun h1 h7 i hi hz => ?cutType⟩
  case types =>
    have unsupported (b : BitVec 6) := subframeHeader_raises_unsupported (b := b) (w := w) hf h
    have reserved (b : BitVec 6) := subframeHeader_raises_reserved (b := b) (w := w) hf h
    exact ⟨unsupported 0 (by decide), fun o => unsupported _ (classify_fixed o),
      fun o => unsupported _ (classify_lpcForm o), fun x => reserved _ (classify_rsvd00001x x),
      fun x => reserved _ (classify_rsvd0001xx x), fun x => reserved _ (classify_rsvd01xxxx x)⟩
  case zero =>
    change Raises (subframeHeader true t w s) s _ _
    rw [subframeHeader_of_zeroBit hf h]
    exact raises_fail_at rfl
  case cut =>
    obtain ⟨z, t, w, rfl⟩ := exists_sfhForm hi
    rw [exec_sfhForm, subframeHeader_of_rem_lt_one hf (by omega)]
    exact raises_fail_self _ _
  case cutType =>
    obtain ⟨z, t, w, rfl⟩ := exists_sfhForm hi
    cases z with
    | true => exact absurd (sfhForm_true t w) (hz t w)
    | false =>
      rw [exec_sfhForm, subframeHeader_of_rem_lt_seven hf h1 h7]
      exact raises_fail_at rfl

/-! ## The wasted bits and the width -/

theorem side_eq (c : ChannelClass) (k : Nat) :
    side c k = if c = .leftSide ∧ k = 1 ∨ c = .sideRight ∧ k = 0 ∨ c = .midSide ∧ k = 1 then 1 else 0 := by
  cases c <;> simp [side]

theorem beginSamples_of_lt_one {off : Nat} (hf : s.sf[s.ch.toNat]? = some f)
    (hw : sampleWidth (channelWidth s.fh.sampleSize (caTable s.params s.fh.channelAssignmentCode) s.ch.toNat)
      f.wastedBitCount < 1) : beginSamples off s = fail s .frameSyncLost off := by
  rw [beginSamples, withSubframe_of_some hf]; exact if_pos hw

theorem execWasted_of_le {k : Nat} (hf : s.sf[s.ch.toNat]? = some f) (h : k ≤ s.rem) :
    execWasted k s = beginSamples s.off ((s.advance k).setSubframe { f with wastedBitCount := k }) := by
  rw [execWasted, withSubframe_of_some hf]; exact consume_of_le h

theorem execWasted_of_lt {k : Nat} (hf : s.sf[s.ch.toNat]? = some f) (h : s.rem < k) :
    execWasted k s = fail s .outOfData s.off := by
  rw [execWasted, withSubframe_of_some hf]; exact consume_of_lt h

/-- Settles O34: the width is `channelWidth` minus the count, and the case split is on whether it is 1 or more. -/
theorem wastedBitsAndWidth : Obligations.WastedBitsAndWidth := by
  intro s f hch hf ca sideBit depth
  have hdepth : channelWidth s.fh.sampleSize ca s.ch.toNat = depth := by rw [channelWidth, side_eq]
  refine ⟨fun h hsize _ hblock => ?flagClear, fun k hk => ⟨fun h hlt _ hblock => ?fits, fun h hle => ?narrow,
    fun h => ?cut⟩⟩
  case flagClear =>
    have := subframeHeader_verbatim_to_sample classify_one hch hf h hsize hblock
    rw [hdepth, BitVec.ofInt_natCast] at this
    exact this
  case fits =>
    have hwidth : sampleWidth (channelWidth s.fh.sampleSize ca s.ch.toNat) k = ((depth - k : Nat) : Int) := by
      rw [hdepth, sampleWidth, Int.ofNat_sub hlt.le]
    have hgo := beginSamples_of_one_le (u := s.off)
      ((s.advance k).getElem_setSubframe { f with wastedBitCount := k } hch)
      hwidth (by omega) hblock
    rw [State.setSubframe_setSubframe, BitVec.ofInt_natCast] at hgo
    exact (execWasted_of_le hf h).trans hgo
  case narrow =>
    have hwidth : sampleWidth (channelWidth s.fh.sampleSize ca s.ch.toNat) k < 1 := by rw [hdepth, sampleWidth]; omega
    have hbad := beginSamples_of_lt_one (off := s.off)
      ((s.advance k).getElem_setSubframe { f with wastedBitCount := k } hch) hwidth
    change Raises (execWasted k s) s _ _
    rw [execWasted_of_le hf h, hbad]
    exact raises_fail_at rfl
  case cut => exact raises_of_eq_fail (execWasted_of_lt hf h)

/-! ## The samples -/

theorem exec_sample (n : Nat) (v : BitVec 36) (s : State) : exec (.sample n v) s = execSample n v s := rfl

theorem execSample_of_le {v : BitVec 36} (hf : s.sf[s.ch.toNat]? = some f) (h1 : 1 ≤ n) (h36 : n ≤ 36) (h : n ≤ s.rem) :
    execSample n v s =
      if f.samples.length + 1 < s.fh.blockSize.toNat then
        .next { s with
          cur := s.cur + n
          sf := s.sf.setIfInBounds s.ch.toNat { f with samples := f.samples ++ [sext n v.toNat] }, elem := .sample }
      else nextChannel { s with
        cur := s.cur + n, sf := s.sf.setIfInBounds s.ch.toNat { f with samples := f.samples ++ [sext n v.toNat] } } := by
  rw [execSample, withSubframe_of_some hf, readBits_of_le h1 h36 h]
  simp only [List.length_append, List.length_singleton]
  rfl

theorem execSample_of_lt {v : BitVec 36} (hf : s.sf[s.ch.toNat]? = some f) (h1 : 1 ≤ n) (h36 : n ≤ 36) (h : s.rem < n) :
    execSample n v s = fail s .outOfData s.off := by
  rw [execSample, withSubframe_of_some hf]; exact readBits_of_lt h1 h36 h

theorem nextChannel_of_lt (h8 : s.ch.toNat < 8) (h : s.ch.toNat + 1 < s.fh.channelCount.toNat) :
    nextChannel s = .next { s with ch := s.ch + 1, elem := .sfh } := by
  rw [nextChannel, toNat_ch_add_one h8, if_pos h]

theorem nextChannel_of_le (h8 : s.ch.toNat < 8) (h : s.fh.channelCount.toNat ≤ s.ch.toNat + 1) :
    nextChannel s = .next { s with ch := s.ch + 1, elem := .pad } := by
  rw [nextChannel, toNat_ch_add_one h8, if_neg (by omega)]

/-- Settles O35. -/
theorem sampleStored : Obligations.SampleStored := by
  refine fun n v s f hch hf h1 h36 => ⟨fun h hmore => ?more, fun h hend hc => ?channel, fun h hend hc => ?last, fun h =>
    raises_of_eq_fail (execSample_of_lt hf h1 h36 h)⟩ <;> rw [exec_sample, execSample_of_le hf h1 h36 h]
  case more => rw [if_pos hmore]
  case channel => rw [if_neg (by omega)]; exact nextChannel_of_lt hch hc
  case last => rw [if_neg (by omega)]; exact nextChannel_of_le hch hc

/-- At a sample the step reads one of the subframe's width. -/
theorem step_sample (he : s.elem = .sample) (hf : s.sf[s.ch.toNat]? = some f) (h36 : f.width.toNat ≤ 36) :
    ∃ v : BitVec 36, v.toNat = bitsVal (s.streamBits f.width.toNat) ∧ step s = execSample f.width.toNat v s := by
  have hwidth : s.elemWidth = f.width.toNat := by simp [State.elemWidth, he, hf]
  have hw : s.window = s.streamBits f.width.toNat := by rw [State.window, he]; exact congrArg s.streamBits hwidth
  have hlen := s.streamBits_length f.width.toNat
  have hfetch : fetch s = some (.sample f.width.toNat (BitVec.ofNat 36 (bitsVal (s.streamBits f.width.toNat)))) := by
    rw [fetch_eq, he, hw, hwidth]
    simp [decodeWhole, Except.toOption, List.take_of_length_le hlen.le]
  exact ⟨_, toNat_sampleField (by rw [hlen]; exact h36), step_of_fetch (by rw [State.atBoundary, he]) hfetch⟩

/-- The samples that `m` steps read from `s`, each of `w` bits. -/
def State.samplesFrom (s : State) (w m : Nat) : List Int :=
  (List.range m).map fun i => sext w (bitsVal ((s.advance (i * w)).streamBits w))

theorem State.samplesFrom_succ (s : State) (w m : Nat) :
    s.samplesFrom w (m + 1) = sext w (bitsVal (s.streamBits w)) :: (s.advance w).samplesFrom w m := by
  simp only [State.samplesFrom, List.range_succ_eq_map, List.map_cons, List.map_map, Nat.zero_mul]
  congr 1
  refine List.map_congr_left fun i _ => ?_
  rw [Function.comp_apply, State.advance_advance, Nat.succ_mul, Nat.add_comm]

/-- After the last sample: the next channel, or the padding. -/
theorem nextChannel_goesTo (h8 : s.ch.toNat < 8) : ∃ e, nextChannel s = .next { s with ch := s.ch + 1, elem := e } ∧
    (s.ch.toNat + 1 < s.fh.channelCount.toNat → e = .sfh) ∧ (s.fh.channelCount.toNat ≤ s.ch.toNat + 1 → e = .pad) := by
  rcases Nat.lt_or_ge (s.ch.toNat + 1) s.fh.channelCount.toNat with h | h
  · exact ⟨_, nextChannel_of_lt h8 h, fun _ => rfl, fun hle => absurd h hle.not_gt⟩
  · exact ⟨_, nextChannel_of_le h8 h, fun hlt => absurd hlt h.not_gt, fun _ => rfl⟩

/-- The subframe with the sample at the cursor appended. -/
def Subframe.sampled (f : Subframe) (s : State) : Subframe :=
  { f with samples := f.samples ++ [sext f.width.toNat (bitsVal (s.streamBits f.width.toNat))] }

/-- The state with the sample at the cursor read. -/
def State.sampled (s : State) (f : Subframe) : State := (s.advance f.width.toNat).setSubframe (f.sampled s)

/-- The last `m + 1` samples of a subframe. -/
theorem run_samples (m : Nat) (he : s.elem = .sample) (hch : s.ch.toNat < 8) (hf : s.sf[s.ch.toNat]? = some f)
    (hmissing : f.samples.length + (m + 1) = s.fh.blockSize.toNat) (h1 : 1 ≤ f.width.toNat) (h36 : f.width.toNat ≤ 36)
    (hrem : (m + 1) * f.width.toNat ≤ s.rem) :
    ∃ e, Host.Core.run core (m + 1) s = .next { s with
        cur := s.cur + (m + 1) * f.width.toNat
        sf := s.sf.setIfInBounds s.ch.toNat { f with samples := f.samples ++ s.samplesFrom f.width.toNat (m + 1) }
        ch := s.ch + 1, elem := e } ∧
      (s.ch.toNat + 1 < s.fh.channelCount.toNat → e = .sfh) ∧ (s.fh.channelCount.toNat ≤ s.ch.toNat + 1 → e = .pad) := by
  induction m generalizing s f with
  | zero =>
    obtain ⟨v, hv, hstep⟩ := step_sample he hf h36
    rw [execSample_of_le hf h1 h36 (by omega), hv, if_neg (by omega)] at hstep
    obtain ⟨e, hgo, hmore, hlast⟩ := nextChannel_goesTo (s := s.sampled f) hch
    refine ⟨e, ?_, hmore, hlast⟩
    rw [run_succ (hstep.trans hgo), run_zero, State.samplesFrom_succ, Nat.zero_add, Nat.one_mul]
    rfl
  | succ m ih =>
    obtain ⟨v, hv, hstep⟩ := step_sample he hf h36
    have hsplit : (m + 1 + 1) * f.width.toNat = f.width.toNat + (m + 1) * f.width.toNat := by
      rw [Nat.succ_mul, Nat.add_comm]
    rw [execSample_of_le hf h1 h36 (by omega), hv, if_pos (by omega)] at hstep
    have hlen : (f.sampled s).samples.length + (m + 1) = s.fh.blockSize.toNat := by
      rw [Subframe.sampled, List.length_append, List.length_singleton]; omega
    have hleft : (m + 1) * f.width.toNat ≤ 8 * s.len - (s.cur + f.width.toNat) := by unfold State.rem at hrem; omega
    obtain ⟨e, hrun, hmore, hlast⟩ := ih (s := (s.sampled f).goto .sample) (f := f.sampled s) rfl hch
      (Vector.getElem?_setIfInBounds_self_of_lt hch) hlen h1 h36 hleft
    refine ⟨e, (run_succ hstep).trans (hrun.trans ?_), hmore, hlast⟩
    rw [s.samplesFrom_succ _ (m + 1), hsplit, ← Nat.add_assoc]
    simp only [State.sampled, Subframe.sampled, State.goto, State.setSubframe, State.advance,
      setIfInBounds_setIfInBounds, List.append_assoc, List.singleton_append]
    rfl

/-- Settles O37: `run_samples`, an induction on the samples that are missing. -/
theorem verbatimSamplesRun : Obligations.VerbatimSamplesRun := by
  intro m s f he hch hf hm hmissing h1 h36 hrem
  obtain ⟨m, rfl⟩ : ∃ k, m = k + 1 := ⟨m - 1, by omega⟩
  exact run_samples m he hch hf hmissing h1 h36 hrem

/-! ## The footer -/

/-- Settles O38. -/
theorem padAlignsUnread : Obligations.PadAlignsUnread := by
  intro bits s
  have hcur : s.cur + (8 - s.cur % 8) % 8 = (s.cur + 7) / 8 * 8 := by omega
  rw [hcur]; rfl

theorem hasExtendedBlockSize_iff {p : Params} {c : BitVec 4} :
    hasExtendedBlockSize p c = true ↔ bsTable p c = .extra8 ∨ bsTable p c = .extra16 := by
  unfold hasExtendedBlockSize; split <;> simp [*]

theorem hasExtendedSampleRate_iff {p : Params} {c : BitVec 4} :
    hasExtendedSampleRate p c = true ↔
      srTable p c = .extra8kHz ∨ srTable p c = .extra16Hz ∨ srTable p c = .extra16TensHz := by
  unfold hasExtendedSampleRate; split <;> simp [*]

/-- The frame emitted last is the record of a state with the header and the subframes of `s`. -/
theorem execCrc16_emits (v : BitVec 16) : Answers (fun t => ∀ fr, t.out.getLast? = some (.frame fr) →
    fr.header = s.fh.record s.params ∧ fr.subframes = (s.sf.toList.take s.fh.channelCount.toNat).map Subframe.record)
    (execCrc16 v s) := by
  have failed {u : State} {x : Failure} {off : Nat} (fr : FrameRecord)
      (h : (u.raise x off).out.getLast? = some (.frame fr)) : False := by simp [State.raise] at h
  have emitted {u : State} (fr : FrameRecord) (h : (u.out ++ [Event.frame u.frameRecord]).getLast? = some (.frame fr)) :
      fr = u.frameRecord := by simpa using h.symm
  refine execCrc16_elim (fun _ => .next fun fr h => (failed fr h).elim) (fun _ _ => .next fun fr h => ?_)
    (fun _ _ _ => .next fun fr h => (failed fr h).elim) (fun _ _ _ => .next fun fr h => ?_)
  all_goals rw [emitted fr h]; exact ⟨rfl, rfl⟩

/-- Settles O40. -/
theorem frameRecordContents : Obligations.FrameRecordContents := by
  intro s t v fr hexec hlast
  obtain ⟨hheader, hsub⟩ := execCrc16_emits v t hexec fr hlast
  simp only [hheader, hsub, FrameHeader.record, hasExtendedBlockSize_iff, hasExtendedSampleRate_iff, true_and]
  refine ⟨by simp, fun c f hc hf => ?_⟩
  rw [List.getElem?_map, List.getElem?_take_of_lt hc, Vector.getElem?_toList, hf]
  rfl

end Sys2Proof.Machine
end

section
/-!
The checksum generators (spec/45): the byte-wise form is the bit-serial one, both are linear over exclusive or, and a
change within as many bits as the register has is never lost.
-/

namespace Sys2Proof.Machine

variable {n : Nat} {poly : BitVec n}

/-! ## One bit -/

theorem accBit_eq (poly a : BitVec n) (d : Bool) : accBit poly a d = a <<< 1 ^^^ (if a.msb ^^ d then poly else 0) := by
  unfold accBit; split <;> simp

theorem crcShift_eq_accBit (poly a : BitVec n) : crcShift poly a = accBit poly a false := by
  simp [crcShift, accBit]

/-- A bit that is put into the register's top goes in as a stream bit does. -/
theorem crcShift_xor (poly a x : BitVec n) : crcShift poly (a ^^^ x) = accBit poly a x.msb ^^^ x <<< 1 := by
  rw [crcShift_eq_accBit, accBit_eq, accBit_eq, BitVec.msb_xor, Bool.xor_false, BitVec.shiftLeft_xor_distrib]
  ac_rfl

theorem accBit_xor (poly a b : BitVec n) (d e : Bool) :
    accBit poly (a ^^^ b) (d ^^ e) = accBit poly a d ^^^ accBit poly b e := by
  have hadd (p q : Bool) : (if p ^^ q then poly else 0) = (if p then poly else 0) ^^^ (if q then poly else 0) := by
    cases p <;> cases q <;> simp
  have hbit : ((a.msb ^^ b.msb) ^^ (d ^^ e)) = ((a.msb ^^ d) ^^ (b.msb ^^ e)) := by
    rw [Bool.xor_assoc, Bool.xor_assoc, Bool.xor_left_comm b.msb]
  rw [accBit_eq, accBit_eq, accBit_eq, BitVec.msb_xor, BitVec.shiftLeft_xor_distrib, hbit, hadd]
  ac_rfl

/-- With a generator whose last coefficient is 1, the register's last bit says whether the generator was added. -/
theorem getLsbD_accBit_zero (hp : poly.getLsbD 0 = true) (a : BitVec n) (d : Bool) :
    (accBit poly a d).getLsbD 0 = (a.msb ^^ d) := by
  rw [accBit_eq, BitVec.getLsbD_xor]
  cases a.msb ^^ d <;> simp [hp]

/-- Two registers that agree after a bit each held the same lower bits, and the same bit was added. -/
theorem accBit_shiftLeft_congr (hp : poly.getLsbD 0 = true) {a b : BitVec n} {d e : Bool} {k : Nat} (hk : k < n)
    (h : accBit poly a d <<< k = accBit poly b e <<< k) :
    (a.msb ^^ d) = (b.msb ^^ e) ∧ a <<< (k + 1) = b <<< (k + 1) := by
  have hlast : (a.msb ^^ d) = (b.msb ^^ e) := by
    have low (c : BitVec n) : (c <<< k).getLsbD k = c.getLsbD 0 := by
      rw [BitVec.getLsbD_shiftLeft, Nat.sub_self]; simp [hk]
    rw [← getLsbD_accBit_zero hp a d, ← getLsbD_accBit_zero hp b e, ← low, ← low, h]
  refine ⟨hlast, ?_⟩
  rw [accBit_eq, accBit_eq, hlast, BitVec.shiftLeft_xor_distrib, BitVec.shiftLeft_xor_distrib] at h
  rw [Nat.add_comm, BitVec.shiftLeft_add, BitVec.shiftLeft_add]
  exact (BitVec.xor_left_inj _).1 h

/-! ## Runs of bits -/

/-- Two runs of at most `n` bits that end alike began alike in the bits they have not pushed out; and if they began
alike, they are the same bits. -/
theorem foldl_accBit_congr (hp : poly.getLsbD 0 = true) {x y : Bits} {a b : BitVec n} (hlen : x.length = y.length)
    (hn : x.length ≤ n) (h : x.foldl (accBit poly) a = y.foldl (accBit poly) b) :
    a <<< x.length = b <<< x.length ∧ (a = b → x = y) := by
  induction x generalizing y a b with
  | nil =>
    obtain rfl : y = [] := List.eq_nil_of_length_eq_zero hlen.symm
    exact ⟨congrArg (fun c : BitVec n => c <<< 0) h, fun _ => rfl⟩
  | cons d x ih =>
    obtain ⟨e, y, rfl⟩ : ∃ e y', y = e :: y' := List.exists_cons_of_length_eq_add_one hlen.symm
    obtain ⟨hshift, heq⟩ := ih (a := accBit poly a d) (b := accBit poly b e) (Nat.succ.inj hlen) (Nat.le_of_succ_le hn) h
    obtain ⟨hbit, hlow⟩ := accBit_shiftLeft_congr hp hn hshift
    refine ⟨hlow, fun hab => ?_⟩
    subst hab
    obtain rfl : d = e := by simpa using hbit
    rw [heq rfl]

/-- A bit loses nothing of the register. -/
theorem accBit_injective (hp : poly.getLsbD 0 = true) {d : Bool} {a b : BitVec n}
    (h : accBit poly a d = accBit poly b d) : a = b := by
  have hpos : 0 < n := BitVec.lt_of_getLsbD hp
  obtain ⟨hbit, hlow⟩ := accBit_shiftLeft_congr hp hpos (congrArg (fun c : BitVec n => c <<< 0) h)
  have hmsb : a.msb = b.msb := by simpa using hbit
  refine BitVec.eq_of_getLsbD_eq fun i hi => ?_
  rcases Nat.lt_or_ge (i + 1) n with hlt | hge
  · have := congrArg (fun c : BitVec n => c.getLsbD (i + 1)) hlow
    simpa [BitVec.getLsbD_shiftLeft, hlt, BitVec.getLsbD_eq_getElem hi] using this
  · obtain rfl : i = n - 1 := by omega
    rwa [BitVec.msb_eq_getLsbD_last, BitVec.msb_eq_getLsbD_last] at hmsb

theorem foldl_accBit_injective (hp : poly.getLsbD 0 = true) (q : Bits) {a b : BitVec n}
    (h : q.foldl (accBit poly) a = q.foldl (accBit poly) b) : a = b := by
  induction q generalizing a b with
  | nil => exact h
  | cons d q ih => exact accBit_injective hp (ih h)

/-- A change within `n` bits is never lost. -/
theorem foldl_accBit_burst (hp : poly.getLsbD 0 = true) {p x y q : Bits} {a : BitVec n} (hlen : x.length = y.length)
    (hn : x.length ≤ n) (hne : x ≠ y) :
    (p ++ x ++ q).foldl (accBit poly) a ≠ (p ++ y ++ q).foldl (accBit poly) a := by
  intro h
  simp only [List.foldl_append] at h
  exact hne ((foldl_accBit_congr hp hlen hn (foldl_accBit_injective hp q h)).2 rfl)

/-! ## Bytes -/

/-- `k` shifts of a register with `x` added: `x`'s first bits have gone in as stream bits, the others are still there. -/
theorem repeat_crcShift (poly a x : BitVec n) (k : Nat) :
    Nat.repeat (crcShift poly) k (a ^^^ x) =
      ((List.range k).map fun i => (x <<< i).msb).foldl (accBit poly) a ^^^ x <<< k := by
  induction k with
  | zero => simp [Nat.repeat]
  | succ k ih =>
    rw [Nat.repeat, ih, crcShift_xor, ← BitVec.shiftLeft_add, List.range_succ, List.map_append, List.foldl_append]
    rfl

/-- A byte goes in as its eight bits do. -/
theorem crcByte_eq_foldl (hn : 8 ≤ n) (poly a : BitVec n) (b : Byte) :
    crcByte poly a b = (putField b).foldl (accBit poly) a := by
  have hout : b.setWidth n <<< (n - 8) <<< 8 = 0 := by
    rw [← BitVec.shiftLeft_add, Nat.sub_add_cancel hn]; simp
  have hbits : ((List.range 8).map fun i => (b.setWidth n <<< (n - 8) <<< i).msb) = putField b := by
    rw [putField_byte]
    refine List.map_congr_left fun i hi => ?_
    have := List.mem_range.1 hi
    rw [← BitVec.shiftLeft_add, BitVec.msb_eq_getLsbD_last, BitVec.getLsbD_shiftLeft, BitVec.getLsbD_setWidth]
    have hlt : n - 1 < n := by omega
    have hge : ¬n - 1 < n - 8 + i := by omega
    have hidx : n - 1 - (n - 8 + i) = 7 - i := by omega
    have hin : 7 - i < n := by omega
    simp [hlt, hge, hidx, hin]
  rw [crcByte, repeat_crcShift, hout, hbits]
  exact BitVec.xor_zero

theorem crcByte_xor (poly a b : BitVec n) (x y : Byte) :
    crcByte poly (a ^^^ b) (x ^^^ y) = crcByte poly a x ^^^ crcByte poly b y := by
  have shift (k : Nat) (c d : BitVec n) : Nat.repeat (crcShift poly) k (c ^^^ d) =
      Nat.repeat (crcShift poly) k c ^^^ Nat.repeat (crcShift poly) k d := by
    induction k with
    | zero => rfl
    | succ k ih =>
      simp only [Nat.repeat, ih, crcShift_eq_accBit]
      exact accBit_xor poly _ _ false false
  have hbyte : (x ^^^ y).setWidth n <<< (n - 8) = x.setWidth n <<< (n - 8) ^^^ y.setWidth n <<< (n - 8) := by
    rw [BitVec.setWidth_xor, BitVec.shiftLeft_xor_distrib]
  rw [crcByte, hbyte, crcByte, crcByte, ← shift]
  congr 1
  ac_rfl

/-- The generators under conventions without reflection and final XOR. -/
theorem crc_eq_foldl {p : CrcParams n} (hrev : p.lsbFirst = false) (hxor : p.xorOut = 0) (m : List Byte) :
    crc p m = m.foldl (crcByte p.poly) p.init := by
  simp only [crc, hrev, hxor, Bool.false_eq_true, if_false]
  exact BitVec.xor_zero

theorem foldl_crcByte (hn : 8 ≤ n) (poly a : BitVec n) (m : List Byte) :
    m.foldl (crcByte poly) a = (bytesBits m).foldl (accBit poly) a := by
  rw [bytesBits, List.foldl_flatMap]
  exact congrArg (fun g => m.foldl g a) (funext fun c => funext fun b => crcByte_eq_foldl hn poly c b)

theorem foldl_crcByte_zipWith (poly : BitVec n) {x y : List Byte} (hlen : x.length = y.length)
    (a b : BitVec n) :
    (List.zipWith (· ^^^ ·) x y).foldl (crcByte poly) (a ^^^ b) =
      x.foldl (crcByte poly) a ^^^ y.foldl (crcByte poly) b := by
  induction x generalizing y a b with
  | nil =>
    obtain rfl : y = [] := List.eq_nil_of_length_eq_zero hlen.symm
    rfl
  | cons c x ih =>
    obtain ⟨d, y, rfl⟩ : ∃ d y', y = d :: y' := List.exists_cons_of_length_eq_add_one hlen.symm
    rw [List.zipWith_cons_cons, List.foldl_cons, crcByte_xor]
    exact ih (Nat.succ.inj hlen) _ _

/-- A register whose first bits are 0 is only moved. -/
theorem repeat_crcShift_of_msb {x : BitVec n} (k : Nat) (h : ∀ i < k, (x <<< i).msb = false) :
    Nat.repeat (crcShift poly) k x = x <<< k := by
  induction k with
  | zero => simp [Nat.repeat]
  | succ k ih =>
    rw [Nat.repeat, ih fun i hi => h i (hi.trans k.lt_succ_self), crcShift, h k k.lt_succ_self, BitVec.shiftLeft_add]
    rfl

/-- A register of eight bits is cleared by its own contents. -/
theorem crcByte_self (poly a : BitVec 8) : crcByte poly a a = 0 := by
  have hzero : a ^^^ a.setWidth 8 <<< (8 - 8) = 0 := by simp
  rw [crcByte, hzero, repeat_crcShift_of_msb 8 (by simp)]
  rfl

/-- A register of sixteen bits is cleared by its own contents, the high byte first. -/
theorem crcByte_crcByte_self (poly a : BitVec 16) :
    crcByte poly (crcByte poly a (a.extractLsb' 8 8)) (a.extractLsb' 0 8) = 0 := by
  have hhigh : a ^^^ (a.extractLsb' 8 8).setWidth 16 <<< (16 - 8) = (a.extractLsb' 0 8).setWidth 16 := by
    ext i hi
    rcases Nat.lt_or_ge i 8 with h | h
    · simp [h, BitVec.getLsbD_eq_getElem hi]
    · simp [h.not_gt, show i - 8 < 8 by omega, show 8 + (i - 8) = i by omega, BitVec.getLsbD_eq_getElem hi]
  have hlow : ∀ i < 8, ((a.extractLsb' 0 8).setWidth 16 <<< i).msb = false := fun i hi => by
    rw [BitVec.msb_eq_getLsbD_last]
    simp
    omega
  rw [crcByte, crcByte, hhigh, repeat_crcShift_of_msb 8 hlow, show 16 - 8 = 8 from rfl, BitVec.xor_self,
    repeat_crcShift_of_msb 8 (by simp)]
  rfl

/-- Settles O41: each clause is a fact about `foldl`, at the two widths. -/
theorem crcSerialResidueLinear : Obligations.CrcSerialResidueLinear := by
  have h8 (m : List Byte) : crc8 defaultParams.crc8 m = m.foldl (crcByte 0x07) 0 := crc_eq_foldl rfl rfl m
  have h16 (m : List Byte) : crc16 defaultParams.crc16 m = m.foldl (crcByte 0x8005) 0 := crc_eq_foldl rfl rfl m
  refine ⟨fun m => ⟨(h8 m).trans (foldl_crcByte le_rfl _ _ m), (h16 m).trans (foldl_crcByte (by decide) _ _ m)⟩,
    fun m => ⟨?_, ?_⟩, fun x y hlen => ⟨?_, ?_⟩⟩
  · rw [h8, List.foldl_append, h8]
    exact crcByte_self _ _
  · rw [h16, List.foldl_append, h16]
    exact crcByte_crcByte_self _ _
  · rw [h8, h8, h8]
    exact foldl_crcByte_zipWith _ hlen 0 0
  · rw [h16, h16, h16]
    exact foldl_crcByte_zipWith _ hlen 0 0

theorem putField_injective {k : Nat} {x y : BitVec k} (h : putField x = putField y) : x = y := by
  have hx := getField_putField x []
  rw [h, getField_putField] at hx
  exact (Prod.mk.inj hx).1.symm

/-- A changed byte is never lost. -/
theorem foldl_crcByte_ne (hn : 8 ≤ n) (hp : poly.getLsbD 0 = true) {p q : List Byte} {x y : Byte} (hne : x ≠ y)
    (a : BitVec n) : (p ++ [x] ++ q).foldl (crcByte poly) a ≠ (p ++ [y] ++ q).foldl (crcByte poly) a := by
  have hbits (z : Byte) : bytesBits (p ++ [z] ++ q) = bytesBits p ++ putField z ++ bytesBits q := by
    simp [bytesBits]
  rw [foldl_crcByte hn, foldl_crcByte hn, hbits, hbits]
  exact foldl_accBit_burst hp ((putField_length x).trans (putField_length y).symm) ((putField_length x).trans_le hn)
    fun h => hne (putField_injective h)

/-- The byte as it is fed. -/
theorem crc_ne (hn : 8 ≤ n) {c : CrcParams n} (hp : c.poly.getLsbD 0 = true) {p q : List Byte} {x y : Byte}
    (hne : x ≠ y) : crc c (p ++ [x] ++ q) ≠ crc c (p ++ [y] ++ q) := by
  intro h
  simp only [crc, BitVec.xor_left_inj] at h
  cases hl : c.lsbFirst <;> simp only [hl, Bool.false_eq_true, if_true, if_false] at h
  · exact foldl_crcByte_ne hn hp hne _ h
  · have hfed (m : List Byte) (a : BitVec n) : m.foldl (fun r b => crcByte c.poly r b.reverse) a =
        (m.map BitVec.reverse).foldl (crcByte c.poly) a := (List.foldl_map ..).symm
    have h := congrArg BitVec.reverse h
    rw [BitVec.reverse_reverse_eq, BitVec.reverse_reverse_eq, hfed, hfed] at h
    simp only [List.map_append, List.map_cons, List.map_nil] at h
    refine foldl_crcByte_ne hn hp (fun hxy => hne ?_) _ h
    rw [← BitVec.reverse_reverse_eq (x := x), hxy, BitVec.reverse_reverse_eq]

/-- Settles O42: the two generators end in a 1. -/
theorem crcDetectsBursts : Obligations.CrcDetectsBursts := by
  refine ⟨fun a p x y q hlen hn hne => foldl_accBit_burst (by decide) hlen hn hne,
    fun a p x y q hlen hn hne => foldl_accBit_burst (by decide) hlen hn hne,
    fun c8 c16 p q x y hp8 hp16 hne => ⟨crc_ne le_rfl (by rw [hp8]; decide) hne,
      crc_ne (by decide) (by rw [hp16]; decide) hne⟩⟩

end Sys2Proof.Machine
end

section
/-!
Two runs side by side. `Twin` says that two states differ at most in the registers without a reset value and the policy,
`Needs` what of these an element reads; then every element answers two such states again (`Alike`). The fields the two
elements read need agree only as far as their bits are there.

`E` stands for *the registers without a reset value agree as well*, `L` for *the second policy may be lenient where the
first is strict*.
-/

namespace Sys2Proof.Machine

/-! ## The relation -/

/-- The registers of a state that have no reset value. -/
def State.unspecified (s : State) : Unspecified :=
  { mb := s.mb, si := s.si, fh := s.fh, sf := s.sf, fr := s.fr, idxAcc := s.idxAcc, idxLeft := s.idxLeft,
    idxLen := s.idxLen }

/-- Two states that differ at most in the policy and in the registers without a reset value. -/
structure Twin (E L : Prop) (s s' : State) : Prop where
  cur     : s'.cur = s.cur
  phase   : s'.phase = s.phase
  lenient : s'.lenient = s.lenient
  policy  : s'.policy = s.policy ∨ L ∧ s.policy = false
  err     : s'.err = s.err
  errOff  : s'.errOff = s.errOff
  siValid : s'.siValid = s.siValid
  first   : s'.first = s.first
  seenSi  : s'.seenSi = s.seenSi
  ch      : s'.ch = s.ch
  out     : s'.out = s.out
  mem     : s'.mem = s.mem
  len     : s'.len = s.len
  params  : s'.params = s.params
  host    : s'.host = s.host
  elem    : s'.elem = s.elem
  kept    : E → s'.unspecified = s.unspecified

/-- The registers of the fixed word agree. -/
structure FhBegun (f g : FrameHeader) : Prop where
  start : g.start = f.start := by rfl
  fixed : g.blockingStrategyFixed = f.blockingStrategyFixed := by rfl
  bsc   : g.blockSizeCode = f.blockSizeCode := by rfl
  src   : g.sampleRateCode = f.sampleRateCode := by rfl
  cac   : g.channelAssignmentCode = f.channelAssignmentCode := by rfl
  ssc   : g.sampleSizeCode = f.sampleSizeCode := by rfl

/-- The index agrees as well. -/
structure FhIndexed (f g : FrameHeader) : Prop extends FhBegun f g where
  index : g.frameOrSampleIndex = f.frameOrSampleIndex := by rfl

/-- The block size agrees as well, and so does its escape field where the code has one. -/
structure FhSized (p : Params) (f g : FrameHeader) : Prop extends FhIndexed f g where
  size    : g.blockSize = f.blockSize := by rfl
  extSize : hasExtendedBlockSize p f.blockSizeCode = true → g.extendedBlockSize = f.extendedBlockSize

/-- The sample rate agrees as well, and so does its escape field where the code has one. -/
structure FhRated (p : Params) (f g : FrameHeader) : Prop extends FhSized p f g where
  rate    : g.sampleRateHz = f.sampleRateHz := by rfl
  extRate : hasExtendedSampleRate p f.sampleRateCode = true → g.extendedSampleRate = f.extendedSampleRate

/-- The channel count agrees as well. -/
structure FhCounted (p : Params) (f g : FrameHeader) : Prop extends FhRated p f g where
  count : g.channelCount = f.channelCount := by rfl

/-- The sample size agrees as well. -/
structure FhComplete (p : Params) (f g : FrameHeader) : Prop extends FhCounted p f g where
  depth : g.sampleSize = f.sampleSize := by rfl

/-- The header checksum agrees as well: all that a frame's record shows. -/
structure FhChecked (p : Params) (f g : FrameHeader) : Prop extends FhComplete p f g where
  crc : g.headerCrc8 = f.headerCrc8 := by rfl
  ok  : g.headerCrcOk = f.headerCrcOk := by rfl

/-- What the element `e` and those after it read of the registers without a reset value. -/
def Needs (s s' : State) (e : Elem) : Prop :=
  match e with
  | .rest => s.phase = .frame ∨ s.phase = .idle ∧ s.seenSi ≠ 0 → s'.si = s.si
  | .sig | .mbh => s.seenSi ≠ 0 → s'.si = s.si
  | .siBody | .mbBody => s'.mb = s.mb ∧ (s.seenSi ≠ 0 → s'.si = s.si)
  | .fhWord => s'.si = s.si
  | .idx => s'.si = s.si ∧ FhBegun s.fh s'.fh
  | .idxCont => s'.si = s.si ∧ FhBegun s.fh s'.fh ∧ s'.idxAcc = s.idxAcc ∧ s'.idxLeft = s.idxLeft ∧ s'.idxLen = s.idxLen
  | .bsCode => s'.si = s.si ∧ s'.fh.start = s.fh.start ∧ s'.fh.blockSizeCode = s.fh.blockSizeCode ∧
      (bsTable s.params s.fh.blockSizeCode ≠ .reserved → FhIndexed s.fh s'.fh)
  | .xbs8 | .xbs16 => s'.si = s.si ∧ FhIndexed s.fh s'.fh
  | .srCode => s'.si = s.si ∧ s'.fh.start = s.fh.start ∧ s'.fh.sampleRateCode = s.fh.sampleRateCode ∧
      (srTable s.params s.fh.sampleRateCode ≠ .reserved → FhSized s.params s.fh s'.fh)
  | .xsr8k | .xsr16 | .xsr16t => s'.si = s.si ∧ FhSized s.params s.fh s'.fh
  | .caCode => s'.si = s.si ∧ s'.fh.start = s.fh.start ∧ s'.fh.channelAssignmentCode = s.fh.channelAssignmentCode ∧
      (caTable s.params s.fh.channelAssignmentCode ≠ .reserved → FhRated s.params s.fh s'.fh)
  | .ssCode => s'.si = s.si ∧ s'.fh.start = s.fh.start ∧ s'.fh.sampleSizeCode = s.fh.sampleSizeCode ∧
      (ssTable s.params s.fh.sampleSizeCode ≠ .reserved → FhCounted s.params s.fh s'.fh)
  | .crc8 => s'.si = s.si ∧ FhComplete s.params s.fh s'.fh
  | .sfh => s'.si = s.si ∧ FhChecked s.params s.fh s'.fh ∧ ∀ c < s.ch.toNat, s'.sf[c]? = s.sf[c]?
  | .wasted => s'.si = s.si ∧ FhChecked s.params s.fh s'.fh ∧ (∀ c < s.ch.toNat, s'.sf[c]? = s.sf[c]?) ∧
      ∀ f g, s.sf[s.ch.toNat]? = some f → s'.sf[s.ch.toNat]? = some g →
        g.subframeType = f.subframeType ∧ g.wastedBitsPresent = f.wastedBitsPresent
  | .sample => s'.si = s.si ∧ FhChecked s.params s.fh s'.fh ∧ ∀ c ≤ s.ch.toNat, s'.sf[c]? = s.sf[c]?
  | .pad | .crc16 => s'.si = s.si ∧ FhChecked s.params s.fh s'.fh ∧
      ∀ c < s.fh.channelCount.toNat, s'.sf[c]? = s.sf[c]?

/-- Two answers that show the same; or the first is a checksum failure that the second's policy softens. -/
inductive Alike (E L : Prop) : Res → Res → Prop
  | next {t t' : State} (twin : Twin E L t t') (needs : Needs t t' t.elem) : Alike E L (.next t) (.next t')
  | fault (f : Fault) : Alike E L (.fault f) (.fault f)
  | refused (r : Refusal) : Alike E L (.refused r) (.refused r)
  | softened {t : State} {r : Res} (hl : L) (hphase : t.phase = .err) (herr : t.err = 6 ∨ t.err = 7) :
      Alike E L (.next t) r

variable {E L : Prop} {s s' t t' u u' : State} {k k' : State → Res} {n : Nat}

theorem Twin.refl (E L : Prop) (s : State) : Twin E L s s :=
  { cur := rfl, phase := rfl, lenient := rfl, policy := .inl rfl, err := rfl, errOff := rfl, siValid := rfl
    first := rfl, seenSi := rfl, ch := rfl, out := rfl, mem := rfl, len := rfl, params := rfl, host := rfl, elem := rfl
    kept := fun _ => rfl }

section Registers

theorem Twin.mb (h : Twin E L s s') (e : E) : s'.mb = s.mb := congrArg Unspecified.mb (h.kept e)

theorem Twin.si (h : Twin E L s s') (e : E) : s'.si = s.si := congrArg Unspecified.si (h.kept e)

theorem Twin.fh (h : Twin E L s s') (e : E) : s'.fh = s.fh := congrArg Unspecified.fh (h.kept e)

theorem Twin.sf (h : Twin E L s s') (e : E) : s'.sf = s.sf := congrArg Unspecified.sf (h.kept e)

theorem Twin.rem (h : Twin E L s s') : s'.rem = s.rem := by rw [State.rem, State.rem, h.len, h.cur]

theorem Twin.off (h : Twin E L s s') : s'.off = s.off := by rw [State.off, State.off, h.cur]

theorem Twin.readByte (h : Twin E L s s') (a : Nat) : s'.readByte a = s.readByte a := by
  rw [State.readByte, State.readByte, State.readByte?, State.readByte?, h.len, h.mem]

theorem Twin.bytes (h : Twin E L s s') (a b : Nat) : s'.bytes a b = s.bytes a b := by
  simp only [State.bytes, h.readByte]

theorem Twin.streamBits (h : Twin E L s s') (m : Nat) : s'.streamBits m = s.streamBits m := by
  simp only [State.streamBits, State.bitAt, h.cur, h.readByte]

end Registers

section Writes

theorem Twin.advance (h : Twin E L s s') (m : Nat) : Twin E L (s.advance m) (s'.advance m) :=
  { h with cur := congrArg (· + m) h.cur }

theorem Twin.goto (h : Twin E L s s') (e : Elem) : Twin E L (s.goto e) (s'.goto e) := { h with elem := rfl }

theorem Twin.setMb {m m' : MetaBlock} (h : Twin E L s s') (hm : E → m' = m) : Twin E L (s.setMb m) (s'.setMb m') :=
  { h with kept := fun e => by rw [hm e]; exact congrArg (fun v : Unspecified => { v with mb := m }) (h.kept e) }

theorem Twin.setSi {m m' : StreamInfo} (h : Twin E L s s') (hm : E → m' = m) : Twin E L (s.setSi m) (s'.setSi m') :=
  { h with kept := fun e => by rw [hm e]; exact congrArg (fun v : Unspecified => { v with si := m }) (h.kept e) }

theorem Twin.setFh {m m' : FrameHeader} (h : Twin E L s s') (hm : E → m' = m) : Twin E L (s.setFh m) (s'.setFh m') :=
  { h with kept := fun e => by rw [hm e]; exact congrArg (fun v : Unspecified => { v with fh := m }) (h.kept e) }

theorem Twin.setSubframe {f f' : Subframe} (h : Twin E L s s') (hf : E → f' = f) :
    Twin E L (s.setSubframe f) (s'.setSubframe f') :=
  have kept (e : E) : (s'.setSubframe f').unspecified = (s.setSubframe f).unspecified := by
    rw [hf e, State.setSubframe, State.setSubframe, h.ch]
    exact congrArg (fun v : Unspecified => { v with sf := v.sf.setIfInBounds s.ch.toNat f }) (h.kept e)
  { h with kept }

/-- The same write to both. -/
theorem Twin.updMb (h : Twin E L s s') (w : MetaBlock → MetaBlock) : Twin E L (s.setMb (w s.mb)) (s'.setMb (w s'.mb)) :=
  h.setMb fun e => congrArg w (h.mb e)

theorem Twin.updFh (h : Twin E L s s') (w : FrameHeader → FrameHeader) :
    Twin E L (s.setFh (w s.fh)) (s'.setFh (w s'.fh)) := h.setFh fun e => congrArg w (h.fh e)

theorem Twin.raise (h : Twin E L s s') (x : Failure) (off : Nat) : Twin E L (s.raise x off) (s'.raise x off) :=
  { h with err := rfl, errOff := rfl, out := congrArg (· ++ [_]) h.out, phase := rfl, elem := rfl }

theorem Twin.report (h : Twin E L s s') (x : Failure) (off : Nat) : Twin E L (s.report x off) (s'.report x off) :=
  { h with out := congrArg (· ++ [_]) h.out }

end Writes

/-! ## The shared operations -/

theorem fail_alike {x : Failure} {off off' : Nat} (h : Twin E L s s') (hoff : off' = off := by rfl) :
    Alike E L (fail s x off) (fail s' x off') := by
  subst hoff
  exact .next (h.raise x _) (by simp [State.raise, Needs])

theorem consume_alike (h : Twin E L s s') (hk : n ≤ s.rem → Alike E L (k (s.advance n)) (k' (s'.advance n))) :
    Alike E L (consume n s k) (consume n s' k') := by
  rcases Nat.lt_or_ge s.rem n with hlt | hle
  · rw [consume_of_lt hlt, consume_of_lt (h.rem ▸ hlt)]
    exact fail_alike h h.off
  · rw [consume_of_le hle, consume_of_le (h.rem ▸ hle)]
    exact hk hle

theorem readBits_alike (h : Twin E L s s') (hk : n ≤ s.rem → Alike E L (k (s.advance n)) (k' (s'.advance n))) :
    Alike E L (readBits n s k) (readBits n s' k') := by
  by_cases hw : n = 0 ∨ 36 < n
  · rw [readBits_of_width hw, readBits_of_width hw]
    exact .refused _
  · rw [readBits_eq_consume (by omega) (by omega), readBits_eq_consume (by omega) (by omega)]
    exact consume_alike h hk

theorem readBytes_alike {m : Nat} (h : Twin E L s s')
    (hk : 8 * m ≤ s.rem → Alike E L (k (s.advance (8 * m))) (k' (s'.advance (8 * m)))) :
    Alike E L (readBytes m s k) (readBytes m s' k') := by
  induction m generalizing s s' with
  | zero => exact hk (Nat.zero_le _)
  | succ m ih =>
    refine readBits_alike h fun h8 => ih (h.advance 8) fun hm => ?_
    rw [State.rem_advance] at hm
    rw [State.advance_advance, State.advance_advance, show 8 + 8 * m = 8 * (m + 1) by omega]
    exact hk (by omega)

theorem ite_alike {c c' : Prop} [Decidable c] [Decidable c'] {a a' b b' : Res} (hc : c' ↔ c) (ht : c → Alike E L a a')
    (hf : ¬c → Alike E L b b') : Alike E L (if c then a else b) (if c' then a' else b') := by
  by_cases h : c
  · rw [if_pos h, if_pos (hc.2 h)]; exact ht h
  · rw [if_neg h, if_neg (mt hc.1 h)]; exact hf h

theorem withSubframe_alike {k k' : Subframe → Res} (h : Twin E L s s')
    (hk : ∀ f f', s.ch.toNat < 8 → s.sf[s.ch.toNat]? = some f → s'.sf[s.ch.toNat]? = some f' →
      Alike E L (k f) (k' f')) :
    Alike E L (withSubframe s k) (withSubframe s' k') := by
  rcases Nat.lt_or_ge s.ch.toNat 8 with hlt | hge
  · obtain ⟨f, hf⟩ := exists_subframe hlt
    obtain ⟨f', hf'⟩ := exists_subframe (s := s') (h.ch ▸ hlt)
    rw [withSubframe_of_some hf, withSubframe_of_some hf']
    exact hk f f' hlt hf (h.ch ▸ hf')
  · rw [withSubframe_of_ge hge, withSubframe_of_ge (h.ch ▸ hge), h.ch]
    exact .fault _

theorem checkVerdict_alike {ok : Bool} {x : Failure} {off : Nat} (h : Twin E L s s')
    (hx : x = .headerChecksumMismatch ∨ x = .frameChecksumMismatch) (hk : Alike E L (k s) (k' s'))
    (hreport : Alike E L (k (s.report x off)) (k' (s'.report x off))) :
    Alike E L (checkVerdict ok x off s k) (checkVerdict ok x off s' k') := by
  cases ok with
  | true => exact hk
  | false =>
    cases hp : s.policy with
    | true =>
      have hp' : s'.policy = true := h.policy.elim (·.trans hp) fun hl => absurd (hl.2.symm.trans hp) (by decide)
      rw [checkVerdict_of_lenient hp, checkVerdict_of_lenient hp']
      exact hreport
    | false =>
      rw [checkVerdict_of_strict hp]
      rcases h.policy with hp' | ⟨hl, _⟩
      · rw [checkVerdict_of_strict (hp'.trans hp)]
        exact fail_alike h
      · exact .softened hl rfl (hx.imp (congrArg Failure.code) (congrArg Failure.code))

end Sys2Proof.Machine
end

section
/-!
Two runs side by side, element by element: from twins that agree in what the element reads, each element answers twins
that agree in what the next one reads.
-/

namespace Sys2Proof.Machine

variable {E L : Prop} {s s' t t' u u' : State} {n : Nat}

/-! ## The signature and the metadata chain -/

theorem execSig_alike {w w' : BitVec 32} (h : Twin E L s s') (hn : Needs s s' .sig) (hw : 32 ≤ s.rem → w' = w) :
    Alike E L (execSig w s) (execSig w' s') := by
  unfold execSig
  dsimp only
  refine readBits_alike h fun h32 => ?_
  obtain rfl := hw h32
  have hsig : (s'.advance 32).params = (s.advance 32).params := h.params
  exact ite_alike (by rw [hsig]) (fun _ => fail_alike (h.advance 32) h.off) fun _ =>
    .next { h.advance 32 with phase := rfl, elem := rfl } hn

theorem endOfBlock_alike (h : Twin E L s s') (hmb : s'.mb = s.mb) (hsi : s.seenSi ≠ 0 → s'.si = s.si) :
    Alike E L (endOfBlock s) (endOfBlock s') := by
  unfold endOfBlock endOfChain
  refine ite_alike (by rw [hmb]) (fun _ => ite_alike (by rw [h.seenSi]) (fun _ => fail_alike h h.off) fun h1 => ?_)
    fun _ => .next (h.goto _) hsi
  have hsi : s'.si = s.si := hsi fun h0 => h1 (by rw [h0]; decide)
  exact .next { h with siValid := rfl, out := by rw [h.out, hsi], phase := rfl, elem := rfl } fun _ => hsi

theorem Twin.clearFirst (h : Twin E L s s') : Twin E L { s with first := false } { s' with first := false } :=
  { h with first := rfl }

theorem blockHeader_alike {l l' : Bool} {b b' : BitVec 7} {m m' : BitVec 24} (h : Twin E L s s')
    (hn : Needs s s' .mbh) (hl : 1 ≤ s.rem → l' = l) (hb : 8 ≤ s.rem → b' = b) (hm : 32 ≤ s.rem → m' = m) :
    Alike E L (blockHeader l b m s) (blockHeader l' b' m' s') := by
  have hoff := h.off
  have hparams := h.params
  unfold blockHeader
  dsimp only
  rw [hoff, hparams]
  refine readBits_alike h fun h1 => ?_
  obtain rfl := hl h1
  have g1 := (h.advance 1).updMb fun m => { m with isLast := l' }
  refine readBits_alike g1 fun h7 => ?_
  have h8 : 8 ≤ s.rem := by simp only [State.rem_setMb, State.rem_advance] at h7; omega
  obtain rfl := hb h8
  have g8 := (g1.advance 7).updMb fun m => { m with blockType := b' }
  refine ite_alike (by rw [g8.first]) (fun _ => fail_alike g8) fun _ => ?_
  have g8 := g8.clearFirst
  refine readBits_alike g8 fun h24 => ?_
  have h32 : 32 ≤ s.rem := by
    change 24 ≤ 8 * s.len - (s.cur + 1 + 7) at h24
    unfold State.rem; omega
  obtain rfl := hm h32
  have g32 := (g8.advance 24).updMb fun m => { m with length := m' }
  exact ite_alike Iff.rfl (fun _ => .next (g32.goto .mbBody) ⟨rfl, hn⟩) fun _ =>
    ite_alike Iff.rfl (fun _ => fail_alike g32) fun _ => .next (g32.goto .siBody) ⟨rfl, hn⟩

theorem execMbBody_alike (h : Twin E L s s') (hn : Needs s s' .mbBody) : Alike E L (execMbBody s) (execMbBody s') := by
  obtain ⟨hmb, hsi⟩ := hn
  unfold execMbBody
  rw [hmb]
  exact consume_alike h fun _ => endOfBlock_alike (h.advance _) hmb hsi

theorem execSiBody_alike {a a' b b' : BitVec 16} {c c' d d' : BitVec 24} {r r' : BitVec 20} {f f' : BitVec 3}
    {g g' : BitVec 5} {i i' : BitVec 36} {j j' : BitVec 128} (h : Twin E L s s') (hn : Needs s s' .siBody)
    (ha : 16 ≤ s.rem → a' = a) (hb : 32 ≤ s.rem → b' = b) (hc : 56 ≤ s.rem → c' = c) (hd : 80 ≤ s.rem → d' = d)
    (hr : 100 ≤ s.rem → r' = r) (hf : 103 ≤ s.rem → f' = f) (hg : 108 ≤ s.rem → g' = g) (hi : 144 ≤ s.rem → i' = i)
    (hj : 272 ≤ s.rem → j' = j) :
    Alike E L (execSiBody a b c d r f g i j s) (execSiBody a' b' c' d' r' f' g' i' j' s') := by
  have twin {k : Nat} {m m' : StreamInfo} (hm : E → m' = m) :
      Twin E L ((s.advance k).setSi m) ((s'.advance k).setSi m') := (h.advance k).setSi hm
  have there {k n : Nat} {m : StreamInfo} (hk : k ≤ s.rem) (hn : n ≤ ((s.advance k).setSi m).rem) : k + n ≤ s.rem := by
    rw [State.rem_setSi, State.rem_advance] at hn; omega
  unfold execSiBody
  dsimp only
  rw [h.off]
  refine readBits_alike h fun h16 => ?_
  obtain rfl := ha h16
  simp only [State.advance_si]
  refine readBits_alike (twin fun e => by rw [h.si e]) fun g => ?_
  have h32 := there h16 g
  obtain rfl := hb h32
  simp only [State.setSi_advance, State.setSi_setSi, State.advance_advance, State.setSi_si]
  refine readBits_alike (twin fun e => by rw [h.si e]) fun g => ?_
  have h56 := there h32 g
  obtain rfl := hc h56
  simp only [State.setSi_advance, State.setSi_setSi, State.advance_advance, State.setSi_si]
  refine readBits_alike (twin fun e => by rw [h.si e]) fun g => ?_
  have h80 := there h56 g
  obtain rfl := hd h80
  simp only [State.setSi_advance, State.setSi_setSi, State.advance_advance, State.setSi_si]
  refine readBits_alike (twin fun e => by rw [h.si e]) fun g => ?_
  have h100 := there h80 g
  obtain rfl := hr h100
  simp only [State.setSi_advance, State.setSi_setSi, State.advance_advance, State.setSi_si]
  refine ite_alike Iff.rfl (fun _ => fail_alike (twin fun e => by rw [h.si e])) fun _ => ?_
  refine readBits_alike (twin fun e => by rw [h.si e]) fun g => ?_
  have h103 := there h100 g
  obtain rfl := hf h103
  simp only [State.setSi_advance, State.setSi_setSi, State.advance_advance, State.setSi_si]
  refine readBits_alike (twin fun e => by rw [h.si e]) fun g => ?_
  have h108 := there h103 g
  obtain rfl := hg h108
  simp only [State.setSi_advance, State.setSi_setSi, State.advance_advance, State.setSi_si]
  refine readBits_alike (twin fun e => by rw [h.si e]) fun g => ?_
  have h144 := there h108 g
  obtain rfl := hi h144
  simp only [State.setSi_advance, State.setSi_setSi, State.advance_advance, State.setSi_si]
  refine readBytes_alike (twin fun e => by rw [h.si e]) fun g => ?_
  obtain rfl := hj (there h144 g)
  have hall := twin (k := 272) (m := ⟨a', b', c', d', r', siChannelCount f', siBitsPerSample g', i', j'⟩) fun _ => rfl
  exact endOfBlock_alike { hall with seenSi := congrArg seenNext h.seenSi } hn.1 fun _ => rfl

/-! ## The frame header -/

theorem execFhWord_alike {a a' : BitVec 14} {z z' w w' y y' : Bool} {b b' c c' d d' : BitVec 4} {f f' : BitVec 3}
    (h : Twin E L s s') (hn : Needs s s' .fhWord) (ha : 14 ≤ s.rem → a' = a) (hz : 15 ≤ s.rem → z' = z)
    (hw : 16 ≤ s.rem → w' = w) (hb : 20 ≤ s.rem → b' = b) (hc : 24 ≤ s.rem → c' = c) (hd : 28 ≤ s.rem → d' = d)
    (hf : 31 ≤ s.rem → f' = f) (hy : 32 ≤ s.rem → y' = y) :
    Alike E L (execFhWord a z w b c d f y s) (execFhWord a' z' w' b' c' d' f' y' s') := by
  have twin {k : Nat} {m m' : FrameHeader} (hm : E → m' = m) :
      Twin E L ((s.advance k).setFh m) ((s'.advance k).setFh m') := (h.advance k).setFh hm
  have there {k n : Nat} {m : FrameHeader} (hk : k ≤ s.rem) (hn : n ≤ ((s.advance k).setFh m).rem) : k + n ≤ s.rem := by
    rw [State.rem_setFh, State.rem_advance] at hn; omega
  have row {k : Nat} {m m' : FrameHeader} {e : Elem} (hm : E → m' = m)
      (hneeds : Needs ((s.advance k).setFh m) ((s'.advance k).setFh m') e) :
      Alike E L (.next (((s.advance k).setFh m).goto e)) (.next (((s'.advance k).setFh m').goto e)) :=
    .next ((twin hm).goto e) (by cases e <;> exact hneeds)
  have hparams := h.params
  unfold execFhWord
  dsimp only
  rw [h.off, hparams]
  refine readBits_alike (h.setFh fun e => by rw [h.fh e]) fun h14 => ?_
  rw [State.rem_setFh] at h14
  obtain rfl := ha h14
  simp only [State.setFh_advance]
  refine ite_alike Iff.rfl (fun _ => fail_alike (twin fun e => by rw [h.fh e])) fun _ => ?_
  refine readBits_alike (twin fun e => by rw [h.fh e]) fun g => ?_
  have h15 := there h14 g
  obtain rfl := hz h15
  simp only [State.setFh_advance, State.advance_advance]
  refine ite_alike Iff.rfl (fun _ => fail_alike (twin fun e => by rw [h.fh e])) fun _ => ?_
  refine readBits_alike (twin fun e => by rw [h.fh e]) fun g => ?_
  have h16 := there h15 g
  obtain rfl := hw h16
  simp only [State.setFh_advance, State.setFh_setFh, State.advance_advance, State.setFh_fh]
  refine readBits_alike (twin fun e => by rw [h.fh e]) fun g => ?_
  have h20 := there h16 g
  obtain rfl := hb h20
  simp only [State.setFh_advance, State.setFh_setFh, State.advance_advance, State.setFh_fh]
  refine ite_alike Iff.rfl (fun hr => row (fun e => by rw [h.fh e]) ⟨hn, rfl, rfl, absurd hr⟩) fun _ => ?_
  refine readBits_alike (twin fun e => by rw [h.fh e]) fun g => ?_
  have h24 := there h20 g
  obtain rfl := hc h24
  simp only [State.setFh_advance, State.setFh_setFh, State.advance_advance, State.setFh_fh]
  refine ite_alike Iff.rfl (fun hr => row (fun e => by rw [h.fh e]) ⟨hn, rfl, rfl, absurd hr⟩) fun _ => ?_
  refine readBits_alike (twin fun e => by rw [h.fh e]) fun g => ?_
  have h28 := there h24 g
  obtain rfl := hd h28
  simp only [State.setFh_advance, State.setFh_setFh, State.advance_advance, State.setFh_fh]
  refine ite_alike Iff.rfl (fun hr => row (fun e => by rw [h.fh e]) ⟨hn, rfl, rfl, absurd hr⟩) fun _ => ?_
  refine readBits_alike (twin fun e => by rw [h.fh e]) fun g => ?_
  have h31 := there h28 g
  obtain rfl := hf h31
  simp only [State.setFh_advance, State.setFh_setFh, State.advance_advance, State.setFh_fh]
  refine ite_alike Iff.rfl (fun hr => row (fun e => by rw [h.fh e]) ⟨hn, rfl, rfl, absurd hr⟩) fun _ => ?_
  refine readBits_alike (twin fun e => by rw [h.fh e]) fun g => ?_
  have h32 := there h31 g
  obtain rfl := hy h32
  simp only [State.setFh_advance, State.advance_advance]
  exact ite_alike Iff.rfl (fun _ => fail_alike (twin fun e => by rw [h.fh e])) fun _ =>
    row (fun e => by rw [h.fh e]) ⟨hn, {}⟩

/-- Where the registers without a reset value agree, an element has all it needs. -/
theorem Needs.of_kept (h : Twin E L s s') (e : E) (x : Elem) : Needs s s' x := by
  have hfh := h.fh e
  have hsf := h.sf e
  have hidx : s'.idxAcc = s.idxAcc ∧ s'.idxLeft = s.idxLeft ∧ s'.idxLen = s.idxLen :=
    ⟨congrArg Unspecified.idxAcc (h.kept e), congrArg Unspecified.idxLeft (h.kept e),
      congrArg Unspecified.idxLen (h.kept e)⟩
  have checked : FhChecked s.params s.fh s.fh := { extSize := fun _ => rfl, extRate := fun _ => rfl }
  have complete := checked.toFhComplete
  have counted := complete.toFhCounted
  have sized := counted.toFhRated.toFhSized
  have entry (f g : Subframe) (hf : s.sf[s.ch.toNat]? = some f) (hg : s.sf[s.ch.toNat]? = some g) :
      g.subframeType = f.subframeType ∧ g.wastedBitsPresent = f.wastedBitsPresent := by
    cases Option.some.inj (hf.symm.trans hg)
    exact ⟨rfl, rfl⟩
  cases x <;> simp only [Needs, h.si e, h.mb e, hfh, hsf, hidx, implies_true, true_and, and_true]
  case idx | idxCont => exact sized.toFhBegun
  case bsCode => exact fun _ => sized.toFhIndexed
  case xbs8 | xbs16 => exact sized.toFhIndexed
  case srCode => exact fun _ => sized
  case xsr8k | xsr16 | xsr16t => exact sized
  case caCode => exact fun _ => counted.toFhRated
  case ssCode => exact fun _ => counted
  case crc8 => exact complete
  case wasted => exact ⟨checked, entry⟩
  case sfh | sample | pad | crc16 => exact checked

/-! ## The code rows -/

/-- The row of the code in its register, or a row where all registers agree. -/
theorem Alike.row {X : Prop} (twin : Twin E L t t') (hc : E ∨ X) (needs : X → Needs t t' t.elem) :
    Alike E L (.next t) (.next t') := .next twin <| hc.elim (fun e => .of_kept twin e _) needs

theorem hasExtendedBlockSize_of_literal {p : Params} {c : BitVec 4} {v : BitVec 17} (h : bsTable p c = .literal v) :
    hasExtendedBlockSize p c = false := by rw [hasExtendedBlockSize, h]

theorem hasExtendedSampleRate_of_literal {p : Params} {c : BitVec 4} {v : BitVec 20} (h : srTable p c = .literal v) :
    hasExtendedSampleRate p c = false := by rw [hasExtendedSampleRate, h]

theorem hasExtendedSampleRate_of_fromStreamInfo {p : Params} {c : BitVec 4} (h : srTable p c = .fromStreamInfo) :
    hasExtendedSampleRate p c = false := by rw [hasExtendedSampleRate, h]

theorem blockSizeRow_alike {c : BitVec 4} (h : Twin E L s s') (hn : Needs s s' .bsCode)
    (hc : E ∨ c = s.fh.blockSizeCode) : Alike E L (blockSizeRow c s) (blockSizeRow c s') := by
  obtain ⟨hsi, hstart, _, hlegal⟩ := hn
  have table {x : BlockSizeClass} (hx : bsTable s.params c = x) : bsTable s'.params c = x := h.params ▸ hx
  cases ht : bsTable s.params c with
  | reserved =>
    rw [blockSizeRow_of_reserved ht, blockSizeRow_of_reserved (table ht)]
    exact fail_alike h (by rw [hstart])
  | literal v =>
    rw [blockSizeRow_of_literal ht, blockSizeRow_of_literal (table ht)]
    refine .row ((h.updFh fun m => { m with blockSize := v }).goto .srCode) hc fun hc => ?_
    have hi := hlegal (by rw [← hc, ht]; nofun)
    have hs : FhSized s.params { s.fh with blockSize := v } { s'.fh with blockSize := v } := { hi with
      size := rfl
      extSize := fun hx => absurd ((hasExtendedBlockSize_of_literal (hc ▸ ht)).symm.trans hx) (by decide) }
    exact ⟨hsi, hstart, hi.src, fun _ => hs⟩
  | extra8 =>
    rw [blockSizeRow_of_extra8 ht, blockSizeRow_of_extra8 (table ht)]
    exact .row (h.goto .xbs8) hc fun hc => ⟨hsi, hlegal (by rw [← hc, ht]; nofun)⟩
  | extra16 =>
    rw [blockSizeRow_of_extra16 ht, blockSizeRow_of_extra16 (table ht)]
    exact .row (h.goto .xbs16) hc fun hc => ⟨hsi, hlegal (by rw [← hc, ht]; nofun)⟩

/-- A sample rate that no field follows. -/
theorem sampleRateRow_go {c : BitVec 4} {v v' : BitVec 20} (h : Twin E L s s') (hn : Needs s s' .srCode)
    (hc : E ∨ c = s.fh.sampleRateCode) (ht : srTable s.params c ≠ .reserved)
    (hext : hasExtendedSampleRate s.params c = false) (hv : v' = v := by rfl) :
    Alike E L (.next { s with fh := { s.fh with sampleRateHz := v }, elem := .caCode })
      (.next { s' with fh := { s'.fh with sampleRateHz := v' }, elem := .caCode }) := by
  subst hv
  obtain ⟨hsi, hstart, _, hlegal⟩ := hn
  refine .row ((h.updFh fun m => { m with sampleRateHz := v' }).goto .caCode) hc fun hc => ?_
  have hs := hlegal (hc ▸ ht)
  have hr : FhRated s.params { s.fh with sampleRateHz := v' } { s'.fh with sampleRateHz := v' } := { hs with
    rate := rfl
    extRate := fun hx => absurd (hext.symm.trans (hc ▸ hx)) (by decide) }
  exact ⟨hsi, hstart, hs.cac, fun _ => hr⟩

theorem sampleRateRow_alike {c : BitVec 4} (h : Twin E L s s') (hn : Needs s s' .srCode)
    (hc : E ∨ c = s.fh.sampleRateCode) : Alike E L (sampleRateRow c s) (sampleRateRow c s') := by
  have table {x : SampleRateClass} (hx : srTable s.params c = x) : srTable s'.params c = x := h.params ▸ hx
  have ⟨hsi, hstart, _, hlegal⟩ := hn
  cases ht : srTable s.params c with
  | reserved =>
    rw [sampleRateRow_of_reserved ht, sampleRateRow_of_reserved (table ht)]
    exact fail_alike h (by rw [hstart])
  | fromStreamInfo =>
    rw [sampleRateRow_of_fromStreamInfo ht, sampleRateRow_of_fromStreamInfo (table ht)]
    exact sampleRateRow_go h hn hc (by rw [ht]; nofun) (hasExtendedSampleRate_of_fromStreamInfo ht)
      (congrArg StreamInfo.sampleRateHz hsi)
  | literal v =>
    rw [sampleRateRow_of_literal ht, sampleRateRow_of_literal (table ht)]
    exact sampleRateRow_go h hn hc (by rw [ht]; nofun) (hasExtendedSampleRate_of_literal ht)
  | extra8kHz =>
    rw [sampleRateRow_of_extra8kHz ht, sampleRateRow_of_extra8kHz (table ht)]
    exact .row (h.goto .xsr8k) hc fun hc => ⟨hsi, hlegal (by rw [← hc, ht]; nofun)⟩
  | extra16Hz =>
    rw [sampleRateRow_of_extra16Hz ht, sampleRateRow_of_extra16Hz (table ht)]
    exact .row (h.goto .xsr16) hc fun hc => ⟨hsi, hlegal (by rw [← hc, ht]; nofun)⟩
  | extra16TensHz =>
    rw [sampleRateRow_of_extra16TensHz ht, sampleRateRow_of_extra16TensHz (table ht)]
    exact .row (h.goto .xsr16t) hc fun hc => ⟨hsi, hlegal (by rw [← hc, ht]; nofun)⟩

/-- A channel count. -/
theorem channelRow_go {c v : BitVec 4} (h : Twin E L s s') (hn : Needs s s' .caCode)
    (hc : E ∨ c = s.fh.channelAssignmentCode) (ht : caTable s.params c ≠ .reserved) :
    Alike E L (.next { s with fh := { s.fh with channelCount := v }, elem := .ssCode })
      (.next { s' with fh := { s'.fh with channelCount := v }, elem := .ssCode }) := by
  obtain ⟨hsi, hstart, _, hlegal⟩ := hn
  refine .row ((h.updFh fun m => { m with channelCount := v }).goto .ssCode) hc fun hc => ?_
  have hr := hlegal (hc ▸ ht)
  have hcount : FhCounted s.params { s.fh with channelCount := v } { s'.fh with channelCount := v } :=
    { hr with count := rfl }
  exact ⟨hsi, hstart, hr.ssc, fun _ => hcount⟩

theorem channelRow_alike {c : BitVec 4} (h : Twin E L s s') (hn : Needs s s' .caCode)
    (hc : E ∨ c = s.fh.channelAssignmentCode) : Alike E L (channelRow c s) (channelRow c s') := by
  have table {x : ChannelClass} (hx : caTable s.params c = x) : caTable s'.params c = x := h.params ▸ hx
  have stereo (hx : caTable s.params c = .leftSide ∨ caTable s.params c = .sideRight ∨ caTable s.params c = .midSide) :
      Alike E L (channelRow c s) (channelRow c s') := by
    rw [channelRow_of_stereo hx, channelRow_of_stereo (hx.imp table (Or.imp table table))]
    exact channelRow_go h hn hc (by rcases hx with hx | hx | hx <;> rw [hx] <;> nofun)
  cases ht : caTable s.params c with
  | reserved =>
    rw [channelRow_of_reserved ht, channelRow_of_reserved (table ht)]
    exact fail_alike h (by rw [hn.2.1])
  | independent v =>
    rw [channelRow_of_independent ht, channelRow_of_independent (table ht)]
    exact channelRow_go h hn hc (by rw [ht]; nofun)
  | leftSide => exact stereo (.inl ht)
  | sideRight => exact stereo (.inr (.inl ht))
  | midSide => exact stereo (.inr (.inr ht))

/-- A sample size. -/
theorem sampleSizeRow_go {c : BitVec 3} {v v' : BitVec 6} (h : Twin E L s s') (hn : Needs s s' .ssCode)
    (hc : E ∨ c = s.fh.sampleSizeCode) (ht : ssTable s.params c ≠ .reserved)
    (hv : v' = v := by rfl) :
    Alike E L (.next { s with fh := { s.fh with sampleSize := v }, elem := .crc8 })
      (.next { s' with fh := { s'.fh with sampleSize := v' }, elem := .crc8 }) := by
  subst hv
  obtain ⟨hsi, _, _, hlegal⟩ := hn
  refine .row ((h.updFh fun m => { m with sampleSize := v' }).goto .crc8) hc fun hc => ⟨hsi, ?_⟩
  exact { hlegal (hc ▸ ht) with depth := rfl }

theorem sampleSizeRow_alike {c : BitVec 3} (h : Twin E L s s') (hn : Needs s s' .ssCode)
    (hc : E ∨ c = s.fh.sampleSizeCode) : Alike E L (sampleSizeRow c s) (sampleSizeRow c s') := by
  have table {x : SampleSizeClass} (hx : ssTable s.params c = x) : ssTable s'.params c = x := h.params ▸ hx
  have ⟨hsi, hstart, _, hlegal⟩ := hn
  cases ht : ssTable s.params c with
  | reserved =>
    rw [sampleSizeRow_of_reserved ht, sampleSizeRow_of_reserved (table ht)]
    exact fail_alike h (by rw [hstart])
  | fromStreamInfo =>
    rw [sampleSizeRow_of_fromStreamInfo ht, sampleSizeRow_of_fromStreamInfo (table ht)]
    exact sampleSizeRow_go h hn hc (by rw [ht]; nofun) (congrArg StreamInfo.bitsPerSample hsi)
  | literal v =>
    rw [sampleSizeRow_of_literal ht, sampleSizeRow_of_literal (table ht)]
    exact sampleSizeRow_go h hn hc (by rw [ht]; nofun)

end Sys2Proof.Machine
end

section
/-!
Two runs side by side, continued: the rest of the frame header, the subframes and the footer.
-/

namespace Sys2Proof.Machine

variable {E L : Prop} {s s' t t' u u' : State} {n : Nat}

/-! ## The index -/

theorem indexDone_alike {v v' : BitVec 36} {m m' : BitVec 3} (h : Twin E L s s') (hsi : s'.si = s.si)
    (hfh : FhBegun s.fh s'.fh) (hm : E → m' = m) (hv : v' = v := by rfl) :
    Alike E L (indexDone v m s) (indexDone v' m' s') := by
  subst hv
  have hi : FhIndexed { s.fh with frameOrSampleIndex := v', indexBytes := m }
      { s'.fh with frameOrSampleIndex := v', indexBytes := m' } := { hfh with index := rfl }
  have g : Twin E L (s.setFh { s.fh with frameOrSampleIndex := v', indexBytes := m })
      (s'.setFh { s'.fh with frameOrSampleIndex := v', indexBytes := m' }) := h.setFh fun e => by rw [h.fh e, hm e]
  exact .next (g.goto .bsCode) ⟨hsi, hfh.start, hfh.bsc, fun _ => hi⟩

theorem execIdx1_alike {v : BitVec 7} (h : Twin E L s s') (hn : Needs s s' .idx) :
    Alike E L (execIdx1 v s) (execIdx1 v s') :=
  readBits_alike h fun _ => indexDone_alike (h.advance 8) hn.1 hn.2 fun _ => rfl

/-- The index counters written alike. -/
theorem Twin.setCounters {v v' : BitVec 36} {l l' : Nat} {m m' : BitVec 3} (h : Twin E L s s') (hv : v' = v)
    (hl : l' = l) (hm : E → m' = m) :
    Twin E L { s with idxAcc := v, idxLeft := l, idxLen := m }
      { s' with idxAcc := v', idxLeft := l', idxLen := m' } := by
  subst hv hl
  refine { h with kept := fun e => ?_ }
  rw [hm e]
  exact congrArg (fun u : Unspecified => { u with idxAcc := v', idxLeft := l', idxLen := m }) (h.kept e)

theorem indexFirst_alike {m : BitVec 3} {v : BitVec 36} (h : Twin E L s s') (hn : Needs s s' .idx) :
    Alike E L (indexFirst m v s) (indexFirst m v s') := by
  refine readBits_alike h fun _ => ?_
  have g := (h.advance 8).setCounters (v := v) (l := m.toNat - 1) (m := m) rfl rfl fun _ => rfl
  exact .next (g.goto .idxCont) ⟨hn.1, hn.2, rfl, rfl, rfl⟩

theorem indexBad_alike (h : Twin E L s s') : Alike E L (indexBad s) (indexBad s') :=
  readBits_alike h fun _ => fail_alike (h.advance 8) h.off

theorem execIdxCont_alike {a a' : BitVec 2} {d d' : BitVec 6} (h : Twin E L s s') (hn : Needs s s' .idxCont)
    (ha : 8 ≤ s.rem → a' = a) (hd : 8 ≤ s.rem → d' = d) : Alike E L (execIdxCont a d s) (execIdxCont a' d' s') := by
  obtain ⟨hsi, hfh, hacc, hleft, hlen⟩ := hn
  refine readBits_alike h fun h8 => ?_
  obtain rfl := ha h8
  obtain rfl := hd h8
  refine ite_alike Iff.rfl (fun _ => fail_alike (h.advance 8) h.off) fun _ => ?_
  have hv : indexAppend s'.idxAcc d' = indexAppend s.idxAcc d' := congrArg (indexAppend · d') hacc
  have hl : s'.idxLeft - 1 = s.idxLeft - 1 := congrArg (· - 1) hleft
  have g := (h.advance 8).setCounters hv hl fun _ => hlen
  dsimp only
  exact ite_alike (iff_of_eq (congrArg (· = 0) hl)) (fun _ => indexDone_alike g hsi hfh (fun _ => hlen) hv) fun _ =>
    .next (g.goto .idxCont) ⟨hsi, hfh, hv, hl, hlen⟩

/-! ## The escape fields and the header's checksum -/

/-- A block size with its escape field. -/
theorem extendedBlockSize_alike {x : BitVec 16} {y : BitVec 17} (h : Twin E L s s') (hsi : s'.si = s.si)
    (hfh : FhIndexed s.fh s'.fh) :
    Alike E L (.next { s with fh := { s.fh with extendedBlockSize := x, blockSize := y }, elem := .srCode })
      (.next { s' with fh := { s'.fh with extendedBlockSize := x, blockSize := y }, elem := .srCode }) := by
  have hs : FhSized s.params { s.fh with extendedBlockSize := x, blockSize := y }
      { s'.fh with extendedBlockSize := x, blockSize := y } := { hfh with size := rfl, extSize := fun _ => rfl }
  exact .next ((h.updFh fun m => { m with extendedBlockSize := x, blockSize := y }).goto .srCode)
    ⟨hsi, hfh.start, hfh.src, fun _ => hs⟩

theorem execXbs8_alike {v v' : BitVec 8} (h : Twin E L s s') (hn : Needs s s' .xbs8) (hv : 8 ≤ s.rem → v' = v) :
    Alike E L (execXbs8 v s) (execXbs8 v' s') :=
  readBits_alike h fun h8 => hv h8 ▸ extendedBlockSize_alike (h.advance 8) hn.1 hn.2

theorem execXbs16_alike {v v' : BitVec 16} (h : Twin E L s s') (hn : Needs s s' .xbs16) (hv : 16 ≤ s.rem → v' = v) :
    Alike E L (execXbs16 v s) (execXbs16 v' s') :=
  readBits_alike h fun h16 => hv h16 ▸ extendedBlockSize_alike (h.advance 16) hn.1 hn.2

/-- A sample rate with its escape field. -/
theorem extendedSampleRate_alike {x : BitVec 16} {y : BitVec 20} (h : Twin E L s s') (hsi : s'.si = s.si)
    (hfh : FhSized s.params s.fh s'.fh) :
    Alike E L (.next { s with fh := { s.fh with extendedSampleRate := x, sampleRateHz := y }, elem := .caCode })
      (.next { s' with fh := { s'.fh with extendedSampleRate := x, sampleRateHz := y }, elem := .caCode }) := by
  have hr : FhRated s.params { s.fh with extendedSampleRate := x, sampleRateHz := y }
      { s'.fh with extendedSampleRate := x, sampleRateHz := y } := { hfh with rate := rfl, extRate := fun _ => rfl }
  exact .next ((h.updFh fun m => { m with extendedSampleRate := x, sampleRateHz := y }).goto .caCode)
    ⟨hsi, hfh.start, hfh.cac, fun _ => hr⟩

theorem execXsr8k_alike {v v' : BitVec 8} (h : Twin E L s s') (hn : Needs s s' .xsr8k) (hv : 8 ≤ s.rem → v' = v) :
    Alike E L (execXsr8k v s) (execXsr8k v' s') :=
  readBits_alike h fun h8 => hv h8 ▸ extendedSampleRate_alike (h.advance 8) hn.1 hn.2

theorem execXsr16_alike {v v' : BitVec 16} (h : Twin E L s s') (hn : Needs s s' .xsr16) (hv : 16 ≤ s.rem → v' = v) :
    Alike E L (execXsr16 v s) (execXsr16 v' s') :=
  readBits_alike h fun h16 => hv h16 ▸ extendedSampleRate_alike (h.advance 16) hn.1 hn.2

theorem execXsr16t_alike {v v' : BitVec 16} (h : Twin E L s s') (hn : Needs s s' .xsr16t) (hv : 16 ≤ s.rem → v' = v) :
    Alike E L (execXsr16t v s) (execXsr16t v' s') :=
  readBits_alike h fun h16 => hv h16 ▸ extendedSampleRate_alike (h.advance 16) hn.1 hn.2

theorem beginChannels_alike (h : Twin E L s s') (hsi : s'.si = s.si) (hfh : FhChecked s.params s.fh s'.fh) :
    Alike E L (beginChannels s) (beginChannels s') := by
  have g : Twin E L { s with ch := 0 } { s' with ch := 0 } := { h with ch := rfl }
  unfold beginChannels
  rw [hfh.count]
  by_cases hc : 0 < s.fh.channelCount.toNat
  · simp only [if_pos hc]
    exact .next (g.goto .sfh) ⟨hsi, hfh, nofun⟩
  · simp only [if_neg hc]
    exact .next (g.goto .pad) ⟨hsi, hfh, fun c h => absurd (Nat.zero_lt_of_lt h) hc⟩

theorem execCrc8_alike {v v' : BitVec 8} (h : Twin E L s s') (hn : Needs s s' .crc8) (hv : 8 ≤ s.rem → v' = v) :
    Alike E L (execCrc8 v s) (execCrc8 v' s') := by
  obtain ⟨hsi, hfh⟩ := hn
  refine readBits_alike h fun h8 => ?_
  obtain rfl := hv h8
  have hwant : (s'.advance 8).wantCrc8 s'.off = (s.advance 8).wantCrc8 s.off := by
    unfold State.wantCrc8
    rw [(h.advance 8).bytes, (h.advance 8).params, State.advance_fh, State.advance_fh, hfh.start, h.off]
  dsimp only
  rw [hwant, h.off]
  generalize (v' == (s.advance 8).wantCrc8 s.off) = ok
  have g := (h.advance 8).updFh fun m => { m with headerCrc8 := v', headerCrcOk := ok }
  have hk : FhChecked s.params { s.fh with headerCrc8 := v', headerCrcOk := ok }
      { s'.fh with headerCrc8 := v', headerCrcOk := ok } := { hfh with crc := rfl, ok := rfl }
  exact checkVerdict_alike g (.inl rfl) (beginChannels_alike g hsi hk) (beginChannels_alike (g.report _ _) hsi hk)

/-! ## The subframes -/

theorem nextChannel_alike (h : Twin E L s s') (hn : Needs s s' .sample) (h8 : s.ch.toNat < 8) :
    Alike E L (nextChannel s) (nextChannel s') := by
  obtain ⟨hsi, hfh, hsf⟩ := hn
  have g : Twin E L { s with ch := s.ch + 1 } { s' with ch := s'.ch + 1 } := { h with ch := congrArg (· + 1) h.ch }
  have h8' : s'.ch.toNat < 8 := h.ch ▸ h8
  rcases Nat.lt_or_ge (s.ch.toNat + 1) s.fh.channelCount.toNat with hlt | hle
  · rw [nextChannel_of_lt h8 hlt, nextChannel_of_lt h8' (by rw [h.ch, hfh.count]; exact hlt)]
    refine .next (g.goto .sfh) ⟨hsi, hfh, fun c hc => hsf c ?_⟩
    have hch : (s.ch + 1).toNat = s.ch.toNat + 1 := toNat_ch_add_one h8
    have hc : c < (s.ch + 1).toNat := hc
    omega
  · rw [nextChannel_of_le h8 hle, nextChannel_of_le h8' (by rw [h.ch, hfh.count]; exact hle)]
    exact .next (g.goto .pad) ⟨hsi, hfh, fun c hc => hsf c (Nat.le_of_lt_succ (Nat.lt_of_lt_of_le hc hle))⟩

theorem Twin.below_setSubframe {f f' : Subframe} (h : Twin E L s s') (hsf : ∀ c < s.ch.toNat, s'.sf[c]? = s.sf[c]?) :
    ∀ c < s.ch.toNat, (s'.setSubframe f').sf[c]? = (s.setSubframe f).sf[c]? := fun c hc => by
  rw [State.getElem?_setSubframe_ne (Nat.ne_of_lt hc), State.getElem?_setSubframe_ne (h.ch ▸ Nat.ne_of_lt hc)]
  exact hsf c hc

/-- The entry of the current channel, as it was written in both. -/
theorem Twin.at_setSubframe {f f' g g' : Subframe} (h : Twin E L s s') (h8 : s.ch.toNat < 8)
    (hg : (s.setSubframe f).sf[s.ch.toNat]? = some g) (hg' : (s'.setSubframe f').sf[s.ch.toNat]? = some g') :
    g = f ∧ g' = f' :=
  ⟨Option.some.inj (hg.symm.trans (s.getElem_setSubframe f h8)),
    Option.some.inj (hg'.symm.trans (h.ch ▸ s'.getElem_setSubframe f' (h.ch ▸ h8)))⟩

theorem Twin.needs_setSubframe {f : Subframe} (h : Twin E L s s') (hsi : s'.si = s.si)
    (hfh : FhChecked s.params s.fh s'.fh) (hsf : ∀ c < s.ch.toNat, s'.sf[c]? = s.sf[c]?) :
    Needs (s.setSubframe f) (s'.setSubframe f) .sample := by
  refine ⟨hsi, hfh, fun c hc => ?_⟩
  rcases Nat.lt_or_eq_of_le hc with hlt | rfl
  · exact h.below_setSubframe hsf c hlt
  · rw [State.setSubframe_ch, State.setSubframe_sf, State.setSubframe_sf, h.ch, Vector.getElem?_setIfInBounds_self,
      Vector.getElem?_setIfInBounds_self]

/-- The samples begin alike where the entry's type, flag and count agree; the array and the width are written anew. -/
theorem beginSamples_alike {off off' : Nat} (h : Twin E L s s') (hsi : s'.si = s.si)
    (hfh : FhChecked s.params s.fh s'.fh) (hsf : ∀ c < s.ch.toNat, s'.sf[c]? = s.sf[c]?)
    (hf : ∀ f g, s.sf[s.ch.toNat]? = some f → s'.sf[s.ch.toNat]? = some g →
      g.subframeType = f.subframeType ∧ g.wastedBitsPresent = f.wastedBitsPresent ∧ g.wastedBitCount = f.wastedBitCount)
    (hoff : off' = off) : Alike E L (beginSamples off s) (beginSamples off' s') := by
  have hparams := h.params
  unfold beginSamples
  refine withSubframe_alike h fun f g h8 hs hs' => ?_
  obtain ⟨type, flag, count, width, samples⟩ := g
  obtain ⟨rfl, rfl, rfl⟩ := hf f _ hs hs'
  have hdepth : channelWidth s'.fh.sampleSize (caTable s'.params s'.fh.channelAssignmentCode) s'.ch.toNat =
      channelWidth s.fh.sampleSize (caTable s.params s.fh.channelAssignmentCode) s.ch.toNat := by
    rw [hfh.depth, hfh.cac, hparams, h.ch]
  dsimp only
  rw [hdepth]
  generalize sampleWidth _ _ = w
  have twin := h.setSubframe fun _ => rfl (a := { f with width := BitVec.ofInt 6 w, samples := [] })
  have needs := h.needs_setSubframe hsi hfh hsf (f := { f with width := BitVec.ofInt 6 w, samples := [] })
  refine ite_alike Iff.rfl (fun _ => fail_alike h hoff) fun _ => ?_
  exact ite_alike (iff_of_eq (congrArg (· = 0) hfh.size)) (fun _ => nextChannel_alike twin needs h8) fun _ =>
    .next (twin.goto .sample) needs

theorem subframeHeader_alike {z z' w w' : Bool} {b b' : BitVec 6} (h : Twin E L s s') (hn : Needs s s' .sfh)
    (hz : 1 ≤ s.rem → z' = z) (hb : 7 ≤ s.rem → b' = b) (hw : 8 ≤ s.rem → w' = w) :
    Alike E L (subframeHeader z b w s) (subframeHeader z' b' w' s') := by
  obtain ⟨hsi, hfh, hsf⟩ := hn
  unfold subframeHeader
  refine withSubframe_alike h fun f f' h8 hs hs' => readBits_alike h fun h1 => ?_
  have same (e : E) : f' = f := Option.some.inj ((hs'.symm.trans (by rw [h.sf e])).trans hs)
  obtain rfl := hz h1
  have g1 := h.advance 1
  refine ite_alike Iff.rfl (fun _ => fail_alike g1 h.off) fun _ => readBits_alike g1 fun h6 => ?_
  rw [State.rem_advance] at h6
  obtain rfl := hb (by omega)
  have g7 (t : SubframeType) := (g1.advance 6).setSubframe (f := { f with subframeType := t })
    (f' := { f' with subframeType := t }) fun e => by rw [same e]
  cases classify b' with
  | reserved | constant | fixed | lpc => exact fail_alike (g7 _) g1.off
  | verbatim =>
    refine readBits_alike (g7 _) fun h1 => ?_
    rw [State.rem_setSubframe, State.rem_advance, State.rem_advance] at h1
    obtain rfl := hw (by omega)
    simp only [State.setSubframe_advance, State.advance_advance, State.setSubframe_setSubframe]
    have g8 := h.advance 8
    cases w' with
    | true =>
      have g := g8.setSubframe (f := { f with subframeType := .verbatim, wastedBitsPresent := true })
        (f' := { f' with subframeType := .verbatim, wastedBitsPresent := true }) fun e => by rw [same e]
      refine .next (g.goto .wasted) ⟨hsi, hfh, g8.below_setSubframe hsf, fun x y hx hy => ?_⟩
      obtain ⟨rfl, rfl⟩ := g8.at_setSubframe h8 hx hy
      exact ⟨rfl, rfl⟩
    | false =>
      have g := g8.setSubframe
        (f := { f with subframeType := .verbatim, wastedBitsPresent := false, wastedBitCount := 0 })
        (f' := { f' with subframeType := .verbatim, wastedBitsPresent := false, wastedBitCount := 0 })
        fun e => by rw [same e]
      refine beginSamples_alike g hsi hfh (g8.below_setSubframe hsf) (fun x y hx hy => ?_) g.off
      obtain ⟨rfl, rfl⟩ := g8.at_setSubframe h8 hx hy
      exact ⟨rfl, rfl, rfl⟩

/-- Two unary codes: the same, where both end inside the input; else neither does. -/
theorem execWasted_alike {k k' : Nat} (h : Twin E L s s') (hn : Needs s s' .wasted)
    (hk : k' = k ∨ s.rem < k ∧ s.rem < k') : Alike E L (execWasted k s) (execWasted k' s') := by
  obtain ⟨hsi, hfh, hsf, hentry⟩ := hn
  refine withSubframe_alike h fun f f' h8 hs hs' => ?_
  have same (e : E) : f' = f := Option.some.inj ((hs'.symm.trans (by rw [h.sf e])).trans hs)
  obtain ⟨htype, hflag⟩ := hentry f f' hs hs'
  rcases hk with rfl | ⟨hlt, hlt'⟩
  · refine consume_alike h fun _ => ?_
    have g := (h.advance k').setSubframe (f := { f with wastedBitCount := k' }) (f' := { f' with wastedBitCount := k' })
      fun e => by rw [same e]
    refine beginSamples_alike g hsi hfh ((h.advance k').below_setSubframe hsf) (fun x y hx hy => ?_) h.off
    obtain ⟨rfl, rfl⟩ := (h.advance k').at_setSubframe h8 hx hy
    exact ⟨htype, hflag, rfl⟩
  · dsimp only [readUnary0]
    rw [consume_of_lt hlt, consume_of_lt (h.rem ▸ hlt')]
    exact fail_alike h h.off

theorem execSample_alike {w : Nat} {v v' : BitVec 36} (h : Twin E L s s') (hn : Needs s s' .sample)
    (hv : w ≤ s.rem → v' = v) : Alike E L (execSample w v s) (execSample w v' s') := by
  obtain ⟨hsi, hfh, hsf⟩ := hn
  refine withSubframe_alike h fun f f' h8 hs hs' => readBits_alike h fun hw => ?_
  obtain rfl := hv hw
  obtain rfl : f' = f := Option.some.inj ((hs'.symm.trans (hsf _ (Nat.le_refl _))).trans hs)
  have g := (h.advance w).setSubframe (fun _ => rfl) (f := { f' with samples := f'.samples ++ [sext w v'.toNat] })
  have needs := (h.advance w).needs_setSubframe hsi hfh (fun c hc => hsf c (Nat.le_of_lt hc))
    (f := { f' with samples := f'.samples ++ [sext w v'.toNat] })
  exact ite_alike (iff_of_eq (congrArg (_ < BitVec.toNat ·) hfh.size)) (fun _ => .next (g.goto .sample) needs)
    fun _ => nextChannel_alike g needs h8

/-! ## The footer -/

theorem execPad_alike (bs bs' : Bits) (h : Twin E L s s') (hn : Needs s s' .pad) :
    Alike E L (execPad bs s) (execPad bs' s') :=
  .next { h with cur := congrArg (fun c => (c + 7) / 8 * 8) h.cur, elem := rfl } hn

/-- The record of a frame shows the header, the entries of its channels and the footer. -/
theorem frameRecord_eq (hparams : s'.params = s.params) (hfh : FhChecked s.params s.fh s'.fh)
    (hsf : ∀ c < s.fh.channelCount.toNat, s'.sf[c]? = s.sf[c]?) (hfr : s'.fr = s.fr) :
    s'.frameRecord = s.frameRecord := by
  have hsize : (if hasExtendedBlockSize s.params s.fh.blockSizeCode then some s'.fh.extendedBlockSize else none) =
      if hasExtendedBlockSize s.params s.fh.blockSizeCode then some s.fh.extendedBlockSize else none :=
    ite_congr rfl (fun hx => congrArg some (hfh.extSize hx)) fun _ => rfl
  have hrate : (if hasExtendedSampleRate s.params s.fh.sampleRateCode then some s'.fh.extendedSampleRate else none) =
      if hasExtendedSampleRate s.params s.fh.sampleRateCode then some s.fh.extendedSampleRate else none :=
    ite_congr rfl (fun hx => congrArg some (hfh.extRate hx)) fun _ => rfl
  have hheader : s'.fh.record s'.params = s.fh.record s.params := by
    simp only [FrameHeader.record, hparams, hfh.fixed, hfh.bsc, hfh.src, hfh.cac, hfh.ssc, hfh.index, hfh.crc, hfh.size,
      hfh.rate, hfh.count, hfh.depth, hsize, hrate]
  have hentries : s'.sf.toList.take s.fh.channelCount.toNat = s.sf.toList.take s.fh.channelCount.toNat := by
    refine List.ext_getElem? fun c => ?_
    rw [List.getElem?_take, List.getElem?_take]
    exact ite_congr rfl (fun hc => by simpa using hsf c hc) fun _ => rfl
  simp only [State.frameRecord, hheader, hfh.count, hentries, hfr, hfh.ok]

theorem emitFrame_alike (h : Twin E L s s') (hsi : s'.si = s.si) (hrecord : s'.frameRecord = s.frameRecord) :
    Alike E L (emitFrame s) (emitFrame s') := by
  unfold emitFrame
  rw [hrecord]
  exact .next { h with out := congrArg (· ++ [_]) h.out, phase := rfl, elem := rfl } fun _ => hsi

theorem execCrc16_alike {v v' : BitVec 16} (h : Twin E L s s') (hn : Needs s s' .crc16) (hv : 16 ≤ s.rem → v' = v) :
    Alike E L (execCrc16 v s) (execCrc16 v' s') := by
  obtain ⟨hsi, hfh, hsf⟩ := hn
  refine readBits_alike h fun h16 => ?_
  obtain rfl := hv h16
  have hwant : (s'.advance 16).wantCrc16 s'.off = (s.advance 16).wantCrc16 s.off := by
    unfold State.wantCrc16
    rw [(h.advance 16).bytes, (h.advance 16).params, State.advance_fh, State.advance_fh, hfh.start, h.off]
  dsimp only
  rw [hwant, h.off]
  generalize (v' == (s.advance 16).wantCrc16 s.off) = ok
  have g : Twin E L { s.advance 16 with fr := ⟨v', ok⟩ } { s'.advance 16 with fr := ⟨v', ok⟩ } :=
    { h.advance 16 with kept := fun e => congrArg (fun u : Unspecified => { u with fr := ⟨v', ok⟩ }) (h.kept e) }
  exact checkVerdict_alike g (.inr rfl) (emitFrame_alike g hsi (frameRecord_eq h.params hfh hsf rfl))
    (emitFrame_alike (g.report _ _) hsi (frameRecord_eq h.params hfh hsf rfl))

/-! ## The same instruction at both -/

/-- A code row is taken with the code in its register, or where all registers agree. -/
def RowAgrees (E : Prop) (i : Instr) (s : State) : Prop :=
  match i.elem with
  | .bsCode => E ∨ (getField 4 (encode s.params i)).1 = s.fh.blockSizeCode
  | .srCode => E ∨ (getField 4 (encode s.params i)).1 = s.fh.sampleRateCode
  | .caCode => E ∨ (getField 4 (encode s.params i)).1 = s.fh.channelAssignmentCode
  | .ssCode => E ∨ (getField 3 (encode s.params i)).1 = s.fh.sampleSizeCode
  | _ => True

theorem exec_alike {i : Instr} (h : Twin E L s s') (hn : Needs s s' i.elem) (hc : RowAgrees E i s) :
    Alike E L (exec i s) (exec i s') := by
  cases i with
  | sig w => exact execSig_alike h hn fun _ => rfl
  | mbhSi l m =>
    exact blockHeader_alike h hn (fun _ => rfl) (fun _ => congrArg Params.tStreamInfo h.params) fun _ => rfl
  | mbhOther l b m => exact blockHeader_alike h hn (fun _ => rfl) (fun _ => rfl) fun _ => rfl
  | siBody a b c d e f g k l =>
    exact execSiBody_alike h hn (fun _ => rfl) (fun _ => rfl) (fun _ => rfl) (fun _ => rfl) (fun _ => rfl) (fun _ => rfl)
      (fun _ => rfl) (fun _ => rfl) fun _ => rfl
  | mbBody => exact execMbBody_alike h hn
  | fhWord a b c d e f g k =>
    exact execFhWord_alike h hn (fun _ => rfl) (fun _ => rfl) (fun _ => rfl) (fun _ => rfl) (fun _ => rfl) (fun _ => rfl)
      (fun _ => rfl) fun _ => rfl
  | idx1 v => exact execIdx1_alike h hn
  | idx2 | idx3 | idx4 | idx5 | idx6 | idx7 => exact indexFirst_alike h hn
  | idxBad10 | idxBadFF => exact indexBad_alike h
  | idxCont t d => exact execIdxCont_alike h hn (fun _ => rfl) fun _ => rfl
  | xbs8 v => exact execXbs8_alike h hn fun _ => rfl
  | xbs16 v => exact execXbs16_alike h hn fun _ => rfl
  | xsr8k v => exact execXsr8k_alike h hn fun _ => rfl
  | xsr16 v => exact execXsr16_alike h hn fun _ => rfl
  | xsr16t v => exact execXsr16t_alike h hn fun _ => rfl
  | crc8 v => exact execCrc8_alike h hn fun _ => rfl
  | sfhConstant w =>
    exact subframeHeader_alike (b := 0) (b' := 0) (w := w) (w' := w) h hn (fun _ => rfl) (fun _ => rfl) fun _ => rfl
  | sfhVerbatim w =>
    exact subframeHeader_alike (b := 1) (b' := 1) (w := w) (w' := w) h hn (fun _ => rfl) (fun _ => rfl) fun _ => rfl
  | sfhRsvd00001x | sfhRsvd0001xx | sfhFixed | sfhRsvd01xxxx | sfhLpc | sfhRsvdZ =>
    exact subframeHeader_alike h hn (fun _ => rfl) (fun _ => rfl) fun _ => rfl
  | wasted k => exact execWasted_alike h hn (.inl rfl)
  | sample w v => exact execSample_alike h hn fun _ => rfl
  | pad bs => exact execPad_alike bs bs h hn
  | crc16 v => exact execCrc16_alike h hn fun _ => rfl
  | bs0000 | bs0001 | bs0010 | bs0011 | bs0100 | bs0101 | bs0110 | bs0111 | bs1000 | bs1001 | bs1010 | bs1011
  | bs1100 | bs1101 | bs1110 | bs1111 => exact blockSizeRow_alike h hn hc
  | sr0000 | sr0001 | sr0010 | sr0011 | sr0100 | sr0101 | sr0110 | sr0111 | sr1000 | sr1001 | sr1010 | sr1011
  | sr1100 | sr1101 | sr1110 | sr1111 => exact sampleRateRow_alike h hn hc
  | ca0000 | ca0001 | ca0010 | ca0011 | ca0100 | ca0101 | ca0110 | ca0111 | ca1000 | ca1001 | ca1010 | ca1011
  | ca1100 | ca1101 | ca1110 | ca1111 => exact channelRow_alike h hn hc
  | ss000 | ss001 | ss010 | ss011 | ss100 | ss101 | ss110 | ss111 => exact sampleSizeRow_alike h hn hc

/-! ## The policy -/

theorem RowAgrees.of_kept {i : Instr} (e : E) : RowAgrees E i s := by
  unfold RowAgrees
  split
  case h_5 => trivial
  all_goals exact .inl e

/-- The second of two twins is the first with other contents of the registers without a reset value, and its policy. -/
theorem Twin.eq_withUnspecified (h : Twin E L s s') :
    s' = { s.withUnspecified s'.unspecified with policy := s'.policy } := by
  obtain ⟨⟩ := s
  obtain ⟨⟩ := s'
  obtain ⟨rfl, rfl, rfl, -, rfl, rfl, rfl, rfl, rfl, rfl, rfl, rfl, rfl, rfl, rfl, rfl, -⟩ := h
  rfl

/-- Settles O56: the two runs of an instruction are alike, the second with a lenient policy. -/
theorem lenientSoftensChecksumsOnly : Obligations.LenientSoftensChecksumsOnly := by
  intro i s t hexec hsoft
  have h : Twin True True { s with policy := false } { s with policy := true } :=
    { Twin.refl True True { s with policy := false } with policy := .inr ⟨trivial, rfl⟩ }
  have halike := exec_alike h (.of_kept h trivial i.elem) (.of_kept trivial)
  rw [hexec] at halike
  generalize hr : exec i { s with policy := true } = r at halike
  cases halike with
  | next twin _ =>
    have hpolicy := (exec_ran i _ _ hr).policy
    rw [twin.eq_withUnspecified, twin.kept trivial, hpolicy]
    rfl
  | softened _ hphase herr => exact absurd ⟨hphase, herr⟩ hsoft

end Sys2Proof.Machine
end

section
/-!
Bits past the end (40 R101): what the decoder answers on the bits that remain, completed by a padding, and on the
window differs at most in fields whose bits are not there, and those no element looks at.
-/

namespace Sys2Proof

/-- What follows the first `p` bits of two runs whose first `B` bits agree as far as `r`. -/
def AgreeFrom (r B p : Nat) (bs bs' : Bits) : Prop := bs'.take (min r B - p) = bs.take (min r B - p)

variable {r B p : Nat} {bs bs' : Bits}

theorem AgreeFrom.take (h : AgreeFrom r B p bs bs') {n : Nat} (hr : p + n ≤ r) (hB : p + n ≤ B) :
    bs'.take n = bs.take n := by
  have hn : min n (min r B - p) = n := by omega
  have htake := congrArg (List.take n) h
  rwa [List.take_take, List.take_take, hn] at htake

theorem AgreeFrom.field (h : AgreeFrom r B p bs bs') {n : Nat} (hr : p + n ≤ r) (hB : p + n ≤ B := by decide) :
    (getField n bs').1 = (getField n bs).1 := by rw [getField, getField, h.take hr hB]

theorem AgreeFrom.drop (h : AgreeFrom r B p bs bs') (n : Nat) : AgreeFrom r B (p + n) (bs.drop n) (bs'.drop n) := by
  have hdrop := congrArg (List.drop n) h
  rw [List.drop_take, List.drop_take] at hdrop
  rwa [AgreeFrom, ← Nat.sub_sub]

theorem AgreeFrom.flag (h : AgreeFrom r B p bs bs') (hr : p + 1 ≤ r) (hB : p + 1 ≤ B := by decide) :
    (getFlag bs').1 = (getFlag bs).1 := by
  have htake := h.take hr hB
  cases bs <;> cases bs' <;> simp_all [getFlag]

theorem AgreeFrom.dropFlag (h : AgreeFrom r B p bs bs') : AgreeFrom r B (p + 1) (getFlag bs).2 (getFlag bs').2 := by
  have hdrop := h.drop 1
  cases bs <;> cases bs' <;> exact hdrop

/-- Unary codes that begin alike are the same, or neither ends in the common part. -/
theorem decodeUnary_append {cs cs' rest rest' : Bits} {k k' : Nat} (h : decodeUnary (bs ++ cs) = some (k, rest))
    (h' : decodeUnary (bs ++ cs') = some (k', rest')) : k' = k ∨ bs.length < k ∧ bs.length < k' := by
  induction bs generalizing k k' with
  | nil => exact .inr ⟨(decodeUnary_some h).1, (decodeUnary_some h').1⟩
  | cons b bs ih =>
    cases b with
    | true => cases h; cases h'; exact .inl rfl
    | false =>
      simp only [List.cons_append, decodeUnary, Option.map_eq_some_iff] at h h'
      obtain ⟨⟨m, _⟩, hm, ⟨⟩⟩ := h
      obtain ⟨⟨m', _⟩, hm', ⟨⟩⟩ := h'
      have := ih hm hm'
      simp only [List.length_cons]
      omega

namespace Machine

variable {s : State} {bs bs' : Bits}

theorem State.take_streamBits (s : State) {m n : Nat} (h : m ≤ n) : (s.streamBits n).take m = s.streamBits m := by
  rw [State.streamBits, ← List.map_take, List.take_range, Nat.min_eq_left h, State.streamBits]

/-- The window of an element read from the input holds the bits that remain, as far as the element goes. -/
theorem State.window_agrees (pad : Bits) (hbs : s.elem ≠ .bsCode) (hsr : s.elem ≠ .srCode) (hca : s.elem ≠ .caCode)
    (hss : s.elem ≠ .ssCode) (hw : s.elem ≠ .wasted) :
    AgreeFrom s.rem (s.elem.bits s.elemWidth) 0 (s.streamBits s.rem ++ pad) s.window := by
  have hwindow : s.window = s.streamBits (s.elem.bits s.elemWidth) := by
    unfold State.window
    split
    case h_1 h => exact absurd h hbs
    case h_2 h => exact absurd h hsr
    case h_3 h => exact absurd h hca
    case h_4 h => exact absurd h hss
    case h_5 h => exact absurd h hw
    case h_6 => rfl
  rw [AgreeFrom, hwindow, Nat.sub_zero, s.take_streamBits (Nat.min_le_right _ _),
    List.take_append_of_le_length (by rw [s.streamBits_length]; exact Nat.min_le_left _ _),
    s.take_streamBits (Nat.min_le_left _ _)]

/-- A first byte of the index cut short fails, whatever it is. -/
theorem exec_idxForm_of_lt (b : BitVec 8) (h : s.rem < 8) : exec (idxForm b) s = fail s .outOfData s.off :=
  exec_idxForm_elim (P := (· = fail s .outOfData s.off)) b (fun v => execIdx1_of_lt v h)
    (fun _ v _ => indexFirst_of_lt v h) (indexBad_of_lt h)

theorem decodeMbh_alike (agree : AgreeFrom s.rem 32 0 bs bs') :
    Alike True False (exec (decodeMbh s.params bs).1 s) (exec (decodeMbh s.params bs').1 s) := by
  have h := Twin.refl True False s
  have agree1 := agree.dropFlag
  have agree8 := agree1.drop 7
  rw [decodeMbh, decodeMbh, exec_mbhForm, exec_mbhForm]
  exact blockHeader_alike h (.of_kept h trivial _) (fun h => agree.flag h) (fun h => agree1.field h)
    fun h => agree8.field h

theorem decodeSiBody_alike (agree : AgreeFrom s.rem 272 0 bs bs') :
    Alike True False (exec (decodeSiBody bs).1 s) (exec (decodeSiBody bs').1 s) := by
  have h := Twin.refl True False s
  have agree16 := agree.drop 16
  have agree32 := agree16.drop 16
  have agree56 := agree32.drop 24
  have agree80 := agree56.drop 24
  have agree100 := agree80.drop 20
  have agree103 := agree100.drop 3
  have agree108 := agree103.drop 5
  have agree144 := agree108.drop 36
  exact execSiBody_alike h (.of_kept h trivial _) (fun h => agree.field h) (fun h => agree16.field h)
    (fun h => agree32.field h) (fun h => agree56.field h) (fun h => agree80.field h) (fun h => agree100.field h)
    (fun h => agree103.field h) (fun h => agree108.field h) fun h => agree144.field h

theorem decodeFhWord_alike (agree : AgreeFrom s.rem 32 0 bs bs') :
    Alike True False (exec (decodeFhWord bs).1 s) (exec (decodeFhWord bs').1 s) := by
  have h := Twin.refl True False s
  have agree14 := agree.drop 14
  have agree15 := agree14.dropFlag
  have agree16 := agree15.dropFlag
  have agree20 := agree16.drop 4
  have agree24 := agree20.drop 4
  have agree28 := agree24.drop 4
  have agree31 := agree28.drop 3
  exact execFhWord_alike h (.of_kept h trivial _) (fun h => agree.field h) (fun h => agree14.flag h)
    (fun h => agree15.flag h) (fun h => agree16.field h) (fun h => agree20.field h) (fun h => agree24.field h) (fun h => agree28.field h)
    fun h => agree31.flag h

theorem decodeSfh_alike (agree : AgreeFrom s.rem 8 0 bs bs') :
    Alike True False (exec (decodeSfh bs).1 s) (exec (decodeSfh bs').1 s) := by
  have h := Twin.refl True False s
  have agree1 := agree.dropFlag
  have agree7 := agree1.drop 6
  rw [decodeSfh, decodeSfh, exec_sfhForm, exec_sfhForm]
  exact subframeHeader_alike h (.of_kept h trivial _) (fun h => agree.flag h) (fun h => agree1.field h)
    fun h => agree7.flag h

theorem decodeWasted_alike {pad rest rest' : Bits} {i j : Instr} (hw : s.elem = .wasted)
    (hi : decodeWhole s.params s.elem s.elemWidth (s.streamBits s.rem ++ pad) = .ok (i, rest))
    (hj : decodeWhole s.params s.elem s.elemWidth s.window = .ok (j, rest')) :
    Alike True False (exec i s) (exec j s) := by
  have h := Twin.refl True False s
  rw [hw] at hi hj
  simp only [decodeWhole] at hi hj
  have hwindow : s.window = s.streamBits s.rem ++ [true] := by rw [State.window, hw]
  rw [hwindow] at hj
  split at hi <;> cases hi
  split at hj <;> cases hj
  refine execWasted_alike h (.of_kept h trivial _) ?_
  rw [← s.streamBits_length s.rem]
  exact decodeUnary_append ‹_› ‹_›

/-- The answers on the filled bits and on the window are alike, element by element. -/
theorem decodeWhole_alike {pad rest rest' : Bits} {i j : Instr} (hbs : s.elem ≠ .bsCode) (hsr : s.elem ≠ .srCode)
    (hca : s.elem ≠ .caCode) (hss : s.elem ≠ .ssCode)
    (hi : decodeWhole s.params s.elem s.elemWidth (s.streamBits s.rem ++ pad) = .ok (i, rest))
    (hj : decodeWhole s.params s.elem s.elemWidth s.window = .ok (j, rest')) :
    Alike True False (exec i s) (exec j s) := by
  have h := Twin.refl True False s
  have hn (e : Elem) : Needs s s e := .of_kept h trivial e
  by_cases hw : s.elem = .wasted
  · exact decodeWasted_alike hw hi hj
  have agree := s.window_agrees pad hbs hsr hca hss hw
  generalize s.streamBits s.rem ++ pad = bs at hi agree
  generalize s.window = bs' at hj agree
  cases he : s.elem <;> rw [he] at hi hj agree <;> simp only [decodeWhole, Elem.bits] at hi hj agree
  case rest => cases hi
  case wasted => exact absurd he hw
  case bsCode => exact absurd he hbs
  case srCode => exact absurd he hsr
  case caCode => exact absurd he hca
  case ssCode => exact absurd he hss
  all_goals cases hi; cases hj
  case sig.refl.refl => exact execSig_alike h (hn _) fun h => agree.field h
  case mbh.refl.refl => exact decodeMbh_alike agree
  case siBody.refl.refl => exact decodeSiBody_alike agree
  case mbBody.refl.refl => exact execMbBody_alike h (hn _)
  case fhWord.refl.refl => exact decodeFhWord_alike agree
  case idx.refl.refl =>
    rcases Nat.lt_or_ge s.rem 8 with hlt | hle
    · rw [exec_idxForm_of_lt _ hlt, exec_idxForm_of_lt _ hlt]
      exact fail_alike h
    · rw [agree.field hle]
      exact exec_alike h (hn _) (.of_kept trivial)
  case idxCont.refl.refl =>
    have agree2 := agree.drop 2
    exact execIdxCont_alike h (hn _) (fun h => agree.field (Nat.le_trans (by decide) h)) fun h => agree2.field h
  case xbs8.refl.refl => exact execXbs8_alike h (hn _) fun h => agree.field h
  case xbs16.refl.refl => exact execXbs16_alike h (hn _) fun h => agree.field h
  case xsr8k.refl.refl => exact execXsr8k_alike h (hn _) fun h => agree.field h
  case xsr16.refl.refl => exact execXsr16_alike h (hn _) fun h => agree.field h
  case xsr16t.refl.refl => exact execXsr16t_alike h (hn _) fun h => agree.field h
  case crc8.refl.refl => exact execCrc8_alike h (hn _) fun h => agree.field h
  case sfh.refl.refl => exact decodeSfh_alike agree
  case sample.refl.refl =>
    refine execSample_alike h (hn _) fun h => ?_
    rw [agree.take (by rwa [Nat.zero_add]) (Nat.le_of_eq (Nat.zero_add _))]
  case pad.refl.refl => exact execPad_alike (bs.take s.elemWidth) (bs'.take s.elemWidth) h (hn _)
  case crc16.refl.refl => exact execCrc16_alike h (hn _) fun h => agree.field h

theorem Twin.eq_of_kept {E L : Prop} {s' : State} (h : Twin E L s s') (e : E) (hl : ¬L) : s' = s := by
  rw [h.eq_withUnspecified, h.kept e, h.policy.resolve_right fun hp => hl hp.1]
  rfl

/-- Settles O5: alike answers of one state are the same. -/
theorem bitsPastTheEndNeverUsed : Obligations.BitsPastTheEndNeverUsed := by
  intro s pad i rest hbs hsr hca hss hdecode
  have hi := (le_of_decode hdecode).2
  have hrest : s.elem ≠ .rest := fun h => by rw [h] at hi; cases hi
  obtain ⟨j, hj⟩ := fetch_isSome hrest
  refine ⟨j, hj, ?_⟩
  rw [fetch_eq] at hj
  cases hd : decodeWhole s.params s.elem s.elemWidth s.window with
  | error => rw [hd] at hj; cases hj
  | ok p =>
    rw [hd] at hj
    cases hj
    have halike := decodeWhole_alike hbs hsr hca hss hi hd
    generalize exec i s = r at halike
    generalize exec p.1 s = r' at halike
    cases halike with
    | next twin _ => rw [twin.eq_of_kept trivial id]
    | fault | refused => rfl
    | softened hl => exact hl.elim

end Machine

end Sys2Proof
end

section
/-!
Reset and the registers without a reset value (10 R42, 70 R341): two runs that start with different contents of them
stay alike, step by step.
-/

namespace Sys2Proof.Machine

variable {E L : Prop} {s s' t : State}

/-! ## An element -/

theorem Twin.elemWidth (h : Twin E L s s') (hn : Needs s s' s.elem) : s'.elemWidth = s.elemWidth := by
  have helem := h.elem
  unfold State.elemWidth
  cases he : s.elem <;> rw [he] at hn helem <;> simp only [helem]
  case sample => rw [h.ch, hn.2.2 _ (Nat.le_refl _)]
  case pad => rw [h.cur]

theorem Twin.window (h : Twin E L s s') (hn : Needs s s' s.elem) : s'.window = s.window := by
  have helem := h.elem
  have hwidth := h.elemWidth hn
  unfold State.window
  cases he : s.elem <;> rw [he] at hn helem <;> simp only [helem, hwidth, h.streamBits, h.rem]
  case bsCode | srCode | caCode | ssCode => rw [hn.2.2.1]

theorem Twin.fetch (h : Twin E L s s') (hn : Needs s s' s.elem) : fetch s' = fetch s := by
  rw [fetch_eq, fetch_eq, h.params, h.elem, h.elemWidth hn, h.window hn]

/-- The row that is fetched is that of the code in the register. -/
theorem RowAgrees.of_fetch {i : Instr} (h : fetch s = some i) : RowAgrees E i s := by
  unfold RowAgrees
  rw [fetch_elem h]
  cases he : s.elem
  case bsCode => cases (fetch_bsCode he).symm.trans h; exact .inr (by rw [encode_bsRow, getField_putField_self])
  case srCode => cases (fetch_srCode he).symm.trans h; exact .inr (by rw [encode_srRow, getField_putField_self])
  case caCode => cases (fetch_caCode he).symm.trans h; exact .inr (by rw [encode_caRow, getField_putField_self])
  case ssCode => cases (fetch_ssCode he).symm.trans h; exact .inr (by rw [encode_ssRow, getField_putField_self])
  all_goals trivial

theorem runElement_alike (h : Twin E L s s') (hn : Needs s s' s.elem) : Alike E L (runElement s) (runElement s') := by
  unfold runElement
  rw [h.fetch hn]
  cases hf : fetch s with
  | none => exact .next h hn
  | some i => exact exec_alike h (fetch_elem hf ▸ hn) (.of_fetch hf)

/-! ## The host's moves -/

theorem hostMove_alike {a : HostAction} (h : Twin E L s s') (hn : Needs s s' s.elem)
    (hrest : s.phase = .idle ∨ s.phase = .frame → s.elem = .rest) : Alike E L (hostMove a s) (hostMove a s') := by
  have hphase := h.phase
  cases a with
  | reset =>
    exact .next { Twin.refl E L s.toReset with mem := h.mem, len := h.len, params := h.params, host := h.host }
      fun _ => rfl
  | start =>
    rw [hostMove, hostMove]
    by_cases hp : s.phase = .idle
    · rw [hrest (.inl hp)] at hn
      rw [State.toStart_of_idle hp, State.toStart_of_idle (hphase.trans hp)]
      refine .next { h with cur := rfl, policy := .inl h.lenient, phase := rfl, elem := rfl } fun hseen => ?_
      exact hn (.inr ⟨hp, hseen⟩)
    · rw [State.toStart_of_ne hp, State.toStart_of_ne (hphase ▸ hp)]
      exact .next h hn
  | next =>
    rw [hostMove, hostMove]
    by_cases hp : s.phase = .frame
    · have hr := hrest (.inr hp)
      rw [hr] at hn
      have hsi : s'.si = s.si := hn (.inl hp)
      have hend : s'.cur = 8 * s'.len ↔ s.cur = 8 * s.len := by rw [h.cur, h.len]
      by_cases he : s.cur = 8 * s.len
      · rw [State.toNext_of_end hp he, State.toNext_of_end (hphase.trans hp) (hend.2 he)]
        refine .next { h with out := congrArg (· ++ [_]) h.out, phase := rfl } ?_
        dsimp only
        rw [hr]
        exact fun _ => hsi
      · rw [State.toNext_of_more hp he, State.toNext_of_more (hphase.trans hp) (mt hend.1 he)]
        exact .next (h.goto .fhWord) hsi
    · rw [State.toNext_of_ne hp, State.toNext_of_ne (hphase ▸ hp)]
      exact .next h hn
  | setLenient b => exact .next { h with lenient := rfl } hn
  | setInput bytes =>
    simp only [hostMove, setInput]
    exact ite_alike (by rw [hphase]) (fun _ => .next { h with mem := rfl, len := rfl } hn) fun _ => .refused _
  | wait => exact .next h hn

/-! ## Steps and runs -/

theorem Twin.popHost (h : Twin E L s s') : Twin E L s.popHost s'.popHost := { h with host := congrArg List.tail h.host }

theorem step_alike (h : Twin E L s s') (hn : Needs s s' s.elem) (hp : s.PlaceAgrees) :
    Alike E L (step s) (step s') := by
  have hpending : s'.pendingAction = s.pendingAction := by
    rw [State.pendingAction, State.pendingAction, State.atBoundary, State.atBoundary, h.elem, h.host]
  unfold step
  rw [hpending]
  split
  · exact runElement_alike h hn
  · exact runElement_alike h.popHost hn
  · obtain ⟨hb, _⟩ := pendingAction_some ‹_›
    refine hostMove_alike h.popHost hn fun hphase => hp.elem_of_boundary hb ?_ ?_
    all_goals intro hs; rw [State.popHost_phase, hs] at hphase; simp at hphase

theorem run_alike {n : Nat} (h : Twin E False s s') (hn : Needs s s' s.elem) (hp : s.PlaceAgrees)
    (hrun : Host.Core.run core n s = .next t) :
    ∃ t', Host.Core.run core n s' = .next t' ∧ Twin E False t t' := by
  induction n generalizing s s' with
  | zero => cases hrun; exact ⟨s', rfl, h⟩
  | succ n ih =>
    obtain ⟨u, hstep, hrest⟩ := run_succ_next hrun
    have halike := step_alike h hn hp
    generalize hstep' : step s' = r' at halike
    rw [hstep] at halike
    cases halike with
    | next twin needs =>
      obtain ⟨t', ht', htwin⟩ := ih twin needs (placeStaysAgreed s u hp hstep) hrest
      exact ⟨t', (run_succ hstep').trans ht', htwin⟩
    | softened hl => exact hl.elim

/-- Settles O59: the run from other contents of the registers is alike, for at reset nothing of them is needed. -/
theorem unspecifiedNeverObserved : Obligations.UnspecifiedNeverObserved := by
  intro u host n t hrun
  have h : Twin False False { State.reset with host := host } ({ State.reset with host := host }.withUnspecified u) :=
    { Twin.refl False False { State.reset with host := host } with kept := False.elim }
  have hn : Needs { State.reset with host := host } ({ State.reset with host := host }.withUnspecified u) .rest :=
    fun hneeded => by simp [State.reset] at hneeded
  obtain ⟨t', hrun', htwin⟩ := run_alike h hn (by simp [State.PlaceAgrees, State.reset]) hrun
  refine ⟨t'.unspecified, ?_⟩
  rw [hrun', htwin.eq_withUnspecified, htwin.policy.resolve_right fun hl => hl.1]
  rfl

end Sys2Proof.Machine
end
